-- ==== Sys2Proof/Word.lean ====
section
/-!
DEFINITION. The word types of the DW460 model: the byte of the bay port and the yard line, and the
32-bit counts that wrap (the millisecond count of R2, the own tick count of R107, the job tag of R5).
-/

namespace Sys2Proof

/-- One byte of a request, a response or a frame. -/
abbrev Byte := BitVec 8

/-- A 32-bit count that wraps from 2^32 - 1 to 0 (R2, R107), or a 32-bit name (the job tag, R5). -/
abbrev Count := BitVec 32

/-- The largest value of a 32-bit count that saturates instead of wrapping (R47, R85, R91). -/
abbrev maxCount : Nat := 4294967295

end Sys2Proof
end

