-- ==== Sys2Proof/Config.lean ====
section
/-!
DEFINITION. What the manual does not fix: the free values of the model. Each is a constant without a
body, so no proof can rest on a value of it (notes/assumptions/6.md, 7.md).
-/

namespace Sys2Proof

/-- The status codes of a response (chapter 11.2). -/
inductive Status where
  /-- Executed as asked. -/
  | ok
  /-- Executed with a value brought within its range or a length shortened. -/
  | clamped
  /-- Not executed: the bay, a slot or an input is in the wrong state. -/
  | refusedState
  /-- Not executed: the request's structure or a value is wrong. -/
  | badArg
  /-- Not executed: the STAGED slot holds a job. -/
  | full
  /-- Nothing to return or to act on. -/
  | empty
  /-- The request was discarded because the previous response was still being prepared (R187). -/
  | notReady
  /-- The command byte names no command. -/
  | unknown
  /-- The bay is in RESETTING, and the request was not executed. -/
  | resetting
  deriving DecidableEq, Repr

/-- The number of each status code on SDO. Chapter 11.2 names the codes and numbers none of them
(notes/assumptions/6.md). -/
opaque Config.statusCode : Status → Byte

/-- The `n`-th free detail byte: the detail of REFUSED_STATE where R22 and R23 refuse an ABORT_COMP
or ABORT_JOB without saying which detail goes with it. R188 gives such an answer one detail byte
(notes/assumptions/7.md). -/
opaque Config.freeByte : Nat → Byte

/-- The `n`-th free detail: the detail of BAD_ARG where R141 answers a READ_PEERS of the wrong
length without saying whether a detail goes with it (notes/assumptions/7.md). -/
opaque Config.freeDetail : Nat → List Byte

/-- The `n`-th free choice among rows of the part's own timers that fall due in one millisecond. The
manual takes coinciding events in some order and fixes none (notes/assumptions/3.md). -/
opaque Config.tieChoice : Nat → Nat

end Sys2Proof
end

