-- ==== Sys2Proof/Syntax.lean ====
section
/-!
DEFINITION. The commands and events of spec/opcode_table.json, one constructor a row, with the
operands the row needs. A host request carries the bytes the host clocked after its command byte;
an event of a circuit, a drop, a line or a station names it.
-/

namespace Sys2Proof

/-- The two wash circuits (R33). -/
inductive Side where
  | a
  | b
  deriving DecidableEq, Repr

/-- The three takers of a compartment and holders of a claim: wash circuit A, wash circuit B and the
fill controller (R105). -/
inductive Consumer where
  | a
  | b
  | fill
  deriving DecidableEq, Repr

/-- The eight drops of the bay (R14). -/
inductive Drop where
  | d1 | d2 | d3 | d4 | d5 | d6 | d7 | d8
  deriving DecidableEq, Repr

/-- The number 1..8 of a drop (R14). -/
def Drop.num : Drop → Nat
  | .d1 => 1 | .d2 => 2 | .d3 => 3 | .d4 => 4 | .d5 => 5 | .d6 => 6 | .d7 => 7 | .d8 => 8

/-- The four product fill lines FILL1..FILL4 (R103). -/
inductive FillLine where
  | l1 | l2 | l3 | l4
  deriving DecidableEq, Repr

/-- The number 1..4 of a fill line (R103). -/
def FillLine.num : FillLine → Nat
  | .l1 => 1 | .l2 => 2 | .l3 => 3 | .l4 => 4

/-- What the host clocked after the command byte of a request: the length byte, unless only the
command byte was clocked, and the bytes after it (R185, R186). -/
structure Request where
  len : Option Byte
  data : List Byte
  deriving DecidableEq, Repr

/-- One conversion of a probe channel: the converted value in the channel's unit, or none when the
front end finds the probe open or shorted (R53). -/
abbrev Conversion := Option Int

/-- The five converted channels of one circuit (R52). -/
structure Conversions where
  t1 : Conversion
  t2 : Conversion
  supply : Conversion
  ret : Conversion
  turbidity : Conversion
  deriving DecidableEq, Repr

/-- The content of a received ANNOUNCE or LEAVE after its class nibble (chapter 12.3): the sender's
address, the state-and-flags byte by parts, and the fields in order. -/
structure StationReport where
  address : BitVec 4
  bayCode : BitVec 4
  safeFlag : Bool
  leavingFlag : Bool
  derateSeen : Bool
  capSet : Byte
  committedHeat : BitVec 16
  committedFlow : BitVec 16
  committedDrain : BitVec 16
  heldLines : Byte
  intentHeat : BitVec 16
  intentFlow : BitVec 16
  intentDrain : BitVec 16
  intentLine : Byte
  intentAge : Byte
  newestAge : Byte
  deriving DecidableEq, Repr

/-- How a received frame comes to be discarded (R151): by the bits taken while the line keeps its level,
as LONG or ABORTED (R150) or by a check at its closing flag, or at a phase error as SYNC (R146), the
level change coming `samples` sample periods after the last sample taken. -/
inductive FrameEnd where
  | unchanged
  | phaseError (samples : Nat)
  deriving DecidableEq, Repr

/-- The rows of spec/opcode_table.json. -/
inductive Instr where
  /-- NOP (R187). -/
  | nop (r : Request)
  /-- STATUS (R192). -/
  | status (r : Request)
  /-- CONFIGURE (R190). -/
  | configure (r : Request)
  /-- WRITE_WEIGHTS (R60). -/
  | writeWeights (r : Request)
  /-- WRITE_RECIPE (R30). -/
  | writeRecipe (r : Request)
  /-- WRITE_MATRIX (R31). -/
  | writeMatrix (r : Request)
  /-- GO (R191), with the level of ADDR[3:0] at its execution (R128). -/
  | go (addr : BitVec 4) (r : Request)
  /-- LOAD_JOB (R6). -/
  | loadJob (r : Request)
  /-- CANCEL_STAGED (R8). -/
  | cancelStaged (r : Request)
  /-- POSITION (R11). -/
  | position (r : Request)
  /-- ABORT_COMP (R22). -/
  | abortComp (r : Request)
  /-- ABORT_JOB (R23). -/
  | abortJob (r : Request)
  /-- READ_JOB (R25). -/
  | readJob (r : Request)
  /-- READ_PEERS (R141). -/
  | readPeers (r : Request)
  /-- SAFE (R173). -/
  | safeStop (r : Request)
  /-- RESUME (R182). -/
  | resume (r : Request)
  /-- READ_EVENT (R194). -/
  | readEvent (r : Request)
  /-- READ_CERT (R168). -/
  | readCert (r : Request)
  /-- REMOVE_CERT (R169). -/
  | removeCert (r : Request)
  /-- READ_SNAPSHOT (R183). -/
  | readSnapshot (r : Request)
  /-- GET_TRAIL (R100). -/
  | getTrail (r : Request)
  /-- SET_TRAIL (R100). -/
  | setTrail (r : Request)
  /-- RESET (R195). -/
  | reset (r : Request)
  /-- UNKNOWN_COMMAND (R186): an exchange whose bytes name no command, `none` when no byte at all
  was clocked in it. -/
  | unknownCommand (r : Option Request)
  /-- EXCHANGE_START (R185): SELN asserted. -/
  | exchangeStart
  /-- PREPARATION_DONE (R187). -/
  | preparationDone
  /-- POWER_ON_RESET (R197): RESETN asserted and then deasserted. -/
  | powerOnReset
  /-- ESTOP_ASSERTED (R173). -/
  | estopAsserted
  /-- PFW_ASSERTED (R179). -/
  | pfwAsserted
  /-- PFW_DEASSERTED (R179). -/
  | pfwDeasserted
  /-- DERATE_ASSERTED (R104). -/
  | derateAsserted
  /-- DERATE_DEASSERTED (R104). -/
  | derateDeasserted
  /-- CONN_ASSERTED (R17). -/
  | connAsserted (d : Drop)
  /-- CONN_DEASSERTED (R24). -/
  | connDeasserted (d : Drop)
  /-- HIGH_ASSERTED (R93); `level` false is the return of the input to its deasserted level. -/
  | highAsserted (d : Drop) (level : Bool)
  /-- DELIV_ASSERTED (R88). -/
  | delivAsserted (l : FillLine)
  /-- DELIV_DEASSERTED (R90). -/
  | delivDeasserted (l : FillLine)
  /-- SUMP_EMPTY_ASSERTED (R41). -/
  | sumpEmptyAsserted
  /-- SUMP_EMPTY_DEASSERTED (R41). -/
  | sumpEmptyDeasserted
  /-- FLOW_METER_PULSE (R38). -/
  | flowMeterPulse (c : Side)
  /-- SPINNER_PULSE (R44). -/
  | spinnerPulse (c : Side)
  /-- FILL_METER_PULSE (R91). -/
  | fillMeterPulse
  /-- PROBE_SAMPLE (R52): the conversions of both circuits. -/
  | probeSample (a b : Conversions)
  /-- DROP_WAIT_EXPIRY (R17). -/
  | dropWaitExpiry (c : Consumer)
  /-- STEP_SECOND (R37). -/
  | stepSecond (c : Side)
  /-- DRAIN_STEP_SECOND (R41). -/
  | drainStepSecond (c : Side)
  /-- INSPECT_STEP_SECOND (R71). -/
  | inspectStepSecond (c : Side)
  /-- SUMP_TIMER_EXPIRY (R41). -/
  | sumpTimerExpiry (c : Side)
  /-- STALL_MONITOR_EXPIRY (R44). -/
  | stallMonitorExpiry (c : Side)
  /-- STALL_LIMIT_EXPIRY (R45). -/
  | stallLimitExpiry (c : Side)
  /-- RUN_OUT_EXPIRY (R49). -/
  | runOutExpiry (c : Side)
  /-- SKID_TIMER_EXPIRY (R90). -/
  | skidTimerExpiry
  /-- NO_FLOW_EXPIRY (R90). -/
  | noFlowExpiry
  /-- FILL_RUN_OUT_EXPIRY (R94). -/
  | fillRunOutExpiry
  /-- ANNOUNCEMENT_TICK (R127). -/
  | announcementTick
  /-- SETTLE_WINDOW_EXPIRY (R112). -/
  | settleWindowExpiry
  /-- LISTEN_TIMER_EXPIRY (R131). -/
  | listenTimerExpiry
  /-- PEER_AGE_STALE (R138). -/
  | peerAgeStale (address : BitVec 4)
  /-- PEER_AGE_GONE (R138). -/
  | peerAgeGone (address : BitVec 4)
  /-- LEAVE_TIMER_EXPIRY (R196). -/
  | leaveTimerExpiry
  /-- ANNOUNCE_RECEIVED (R136): the content of a good foreign ANNOUNCE. -/
  | announceReceived (content : StationReport)
  /-- LEAVE_RECEIVED (R139): the content of a good foreign LEAVE. -/
  | leaveReceived (content : StationReport)
  /-- ROLL_CALL_RECEIVED (R130): the sender's address and capacity set identifier. -/
  | rollCallReceived (address : BitVec 4) (capSet : Byte)
  /-- FRAME_DISCARD (R151). -/
  | frameDiscard (e : FrameEnd)
  /-- ATTEMPT_START (R154): at the beginning of the next cell, with no level change before it. -/
  | attemptStart
  /-- LOST_ARBITRATION (R155): the number, from 0, of the bit of the attempt that read back wrong. -/
  | lostArbitration (bit : Nat)
  /-- BIT_ERROR (R156): the number, from 0, of the bit of the attempt that read back wrong. -/
  | bitError (bit : Nat)
  /-- FRAME_SENT (R157). -/
  | frameSent
  /-- ESTOP_DEASSERTED (R181). -/
  | estopDeasserted
  /-- YLS_EDGE (R144): a level change of YLS, `samples` sample periods after the last sample taken. -/
  | ylsEdge (samples : Nat)
  /-- CLOCK_UNLOCKED (R144). -/
  | clockUnlocked
  /-- FRAME_OPENED (R150). -/
  | frameOpened
  /-- LINE_FREE (R152). -/
  | lineFree
  /-- LINE_BUSY (R152). -/
  | lineBusy
  deriving DecidableEq, Repr

end Sys2Proof
end

