-- ==== Sys2Proof/Decode.lean ====
section
/-!
DEFINITION. The reading of a row from bits. No row of spec/opcode_table.json gives bits, and chapter
11.2 numbers no command byte, so no word spells a row (notes/assumptions/27.md).
-/

namespace Sys2Proof

/-- The row a word spells: none, since the table gives no row any bits. -/
def decodeTableWord (_nbits _w : Nat) : Option Instr := none

end Sys2Proof
end

