-- ==== Sys2Proof/Machine/State.lean ====
section
/-!
DEFINITION. The state of the DW460 as plain data, one structure a block of the manual's block diagram
(00_scope.md), and its values after power-on reset. A timer field is `none` while its timer is stopped
and holds the milliseconds left while it runs (R3); the pause timer holds the milliseconds so far.
Fields the manual implies without naming them, and fields of the model alone, say so.
-/

namespace Sys2Proof.Machine

/-! ### Codes shared by the blocks (chapter 12.1) -/

/-- Bay states (R189). -/
inductive BayState where
  | setup
  | listen
  | live
  | safe
  | resetting
  deriving DecidableEq, Repr

/-- Step outcomes, verdicts, compartment reasons and fill outcomes (chapter 12.1, result codes). -/
inductive ResultCode where
  | none
  | done
  | drainLimit
  | cut
  | pass
  | timeShort
  | doseShort
  | spinner
  | probe
  | failCoverage
  | failResidue
  | noDrop
  | dropLost
  | host
  | reset
  | filled
  | short
  | over
  | highLevel
  | noSkid
  | noFlow
  | skidStopped
  deriving DecidableEq, Repr

/-- Compartment states (R13). -/
inductive CompState where
  | queued
  | waitDrop
  | washing
  | fillWait
  | filling
  | ending
  | done
  | skipped
  | failed
  | rejected
  | aborted
  deriving DecidableEq, Repr

/-- Step kinds (R29). -/
inductive StepKind where
  | rinse
  | wash
  | sanitize
  | drain
  | inspect
  deriving DecidableEq, Repr

/-- Media (R29). -/
inductive Medium where
  | none
  | water
  | hotWater
  | detergent
  | acid
  | sanitizer
  deriving DecidableEq, Repr

/-- Entries of the clean matrix (R28). -/
inductive MatrixEntry where
  | forbidden
  | noRecipe
  | recipe (index : Nat)
  deriving DecidableEq, Repr

/-- The matrix entry stored with a loaded compartment; a compartment with drop 0 stores none (R5). -/
inductive StoredEntry where
  | absent
  | noRecipe
  | recipe (index : Nat)
  deriving DecidableEq, Repr

/-- Wash circuit states (R33). -/
inductive CircuitState where
  | idle
  | waitDrop
  | admitting
  | running
  | paused
  | runOut
  deriving DecidableEq, Repr

/-- Fill controller states (R85). -/
inductive FillState where
  | idle
  | waitDrop
  | admitting
  | awaitSkid
  | flowing
  | closing
  | interrupted
  deriving DecidableEq, Repr

/-- Why the fill valve was closed into CLOSING (R85). -/
inductive CloseKind where
  | none
  | normal
  | high
  | abort
  | dropLost
  deriving DecidableEq, Repr

/-- Claim states (R106). -/
inductive ClaimState where
  | idle
  | waiting
  | intent
  | satisfied
  deriving DecidableEq, Repr

/-- Probe status of the last reconciled second (R55, R69). -/
inductive ProbeStatus where
  | none
  | agree
  | corrected
  | failed
  deriving DecidableEq, Repr

/-- Job results (R21). -/
inductive JobResult where
  | none
  | pass
  | fail
  deriving DecidableEq, Repr

/-- Reasons of a frame discard (R151), with BIT_ERROR as the LINE_DEGRADED detail of R160. -/
inductive DiscardReason where
  | none
  | long
  | short
  | align
  | crc
  | format
  | aborted
  | sync
  | bitError
  deriving DecidableEq, Repr

/-- Outcomes of an own attempt (R153). -/
inductive AttemptOutcome where
  | none
  | sent
  | lost
  | bitError
  deriving DecidableEq, Repr

/-- SAFE causes (R173). -/
inductive Cause where
  | estop
  | pfw
  | safeCmd
  | clash
  deriving DecidableEq, Repr

/-- PFW silence states (R179). -/
inductive Silence where
  | quiet
  | leavePending
  | silent
  deriving DecidableEq, Repr

/-- Event kinds (R193). -/
inductive EventKind where
  | jobPromoted
  | certWait
  | jobEnded
  | compEnded
  | stepEnded
  | claimShed
  | derateOn
  | derateOff
  | peerJoined
  | peerStale
  | peerGone
  | peerLeft
  | capSetMismatch
  | lineDegraded
  | lineGood
  | safeEntered
  | safeLeft
  | certReady
  deriving DecidableEq, Repr

/-! ### Configuration and recipe store (R190, R28, R29) -/

/-- The configuration record (R190). -/
structure Configuration where
  capSet : Nat
  /-- 0 for 62.5 kbit/s, 1 for 125 kbit/s. -/
  bitRate : Nat
  /-- T_a in ms. -/
  period : Nat
  capHeat : Nat
  capFlow : Nat
  capDrain : Nat
  heatPercent : Nat
  flowPercent : Nat
  meterA : Nat
  meterB : Nat
  pulsesPerRevA : Nat
  pulsesPerRevB : Nat
  /-- ms. -/
  stallTime : Nat
  /-- s. -/
  stallLimit : Nat
  /-- s. -/
  runOutTime : Nat
  /-- s. -/
  probeFaultLimit : Nat
  /-- s. -/
  dropWaitLimit : Nat
  fillMeter : Nat
  fillTolerance : Nat
  /-- s. -/
  fillRunOut : Nat
  /-- s. -/
  skidTimeout : Nat
  /-- s. -/
  noFlowTime : Nat
  /-- 0 disabled, 1 enabled. -/
  phaseShift : Nat
  deriving DecidableEq, Repr

/-- Every field 0: what the blocks read while no configuration is present (only in SETUP). -/
def Configuration.blank : Configuration :=
  ⟨0, 0, 0, 0, 0, 0, 0, 0, 0, 0, 0, 0, 0, 0, 0, 0, 0, 0, 0, 0, 0, 0, 0⟩

/-- A recipe step (R29). -/
structure Step where
  kind : StepKind
  medium : Medium
  heat : Nat
  flow : Nat
  drain : Nat
  qMin : Nat
  /-- Good seconds, dose units or seconds, by kind. -/
  target : Nat
  maxTime : Nat
  holdLimit : Nat
  curve : Nat
  minConc : Nat
  turbidityLimit : Nat
  excessLimit : Nat
  deriving DecidableEq, Repr

/-- A stored recipe (R28); its step count k is the length of `steps`. -/
structure Recipe where
  repeatIndex : Nat
  retryLimit : Nat
  coverageMin : Nat
  steps : List Step
  deriving DecidableEq, Repr

/-- The recipe store (R28): 16 slots, the clean matrix by prior class and next class, 4 curves of 16
weights. -/
structure RecipeStore where
  recipes : List (Option Recipe)
  matrix : List (List MatrixEntry)
  curves : List (List Nat)
  deriving DecidableEq, Repr

/-! ### Measurement front end and pins (R4, R52, R198) -/

/-- The held readings of one circuit's channels (R52). -/
structure Channels where
  t1 : Nat
  t2 : Nat
  supply : Nat
  ret : Nat
  turbidity : Nat
  deriving DecidableEq, Repr

/-- The measurement front end (R52). -/
structure FrontEnd where
  a : Channels
  b : Channels
  deriving DecidableEq, Repr

/-- The input pins: `true` is asserted (R4; the levels: `State.inputLevel`); `yls` is the line level,
`true` recessive. Bit d - 1 of `conn` and `high` is drop d, bit L - 1 of `deliv` is fill line L. -/
structure Pins where
  resetn : Bool
  estop : Bool
  pfw : Bool
  derate : Bool
  sump : Bool
  conn : BitVec 8
  high : BitVec 8
  deliv : BitVec 4
  yls : Bool
  deriving DecidableEq, Repr

/-! ### Entries of a certificate (R42, R78, R96) -/

/-- The entry of a RINSE, WASH, SANITIZE or DRAIN step (R42). -/
structure WashEntry where
  kind : StepKind
  number : Nat
  outcome : ResultCode
  elapsed : Nat
  good : Nat
  dose : Nat
  tMin : Nat
  tMax : Nat
  corrected : Nat
  failed : Nat
  revolutions : Nat
  pauses : Nat
  deriving DecidableEq, Repr

/-- The entry of a run of INSPECT (R78). -/
structure InspectEntry where
  number : Nat
  verdict : ResultCode
  elapsed : Nat
  samples : Nat
  meanExcess : Nat
  meanTurbidity : Nat
  tMin : Nat
  tMax : Nat
  corrected : Nat
  failed : Nat
  compRevolutions : Nat
  deriving DecidableEq, Repr

/-- One element of an entry list (R33). -/
inductive StepEntry where
  | wash (e : WashEntry)
  | inspect (e : InspectEntry)
  deriving DecidableEq, Repr

/-- The fill entry (R96). -/
structure FillEntry where
  line : Nat
  outcome : ResultCode
  preset : Nat
  finalVolume : Nat
  volumeAtClose : Nat
  trailUsed : Nat
  interruptions : Nat
  /-- Whole seconds, 0..65535. -/
  duration : Nat
  deriving DecidableEq, Repr

/-! ### Job store (R5, R13, R21) -/

/-- A compartment entry as loaded (R5). -/
structure LoadedComp where
  prior : Nat
  next : Nat
  drop : Nat
  fillLine : Nat
  fillVolume : Nat
  stored : StoredEntry
  deriving DecidableEq, Repr

/-- A compartment of the active job (R13), with the entry list and fill entry the job store keeps for
its record (R165) and the wash circuit that took it (R166). -/
structure Comp where
  loaded : LoadedComp
  state : CompState
  owner : Option Consumer
  reason : ResultCode
  retriesUsed : Nat
  revolutions : Nat
  entries : List StepEntry
  fillEntry : Option FillEntry
  washedBy : Option Side
  deriving DecidableEq, Repr

/-- The staged job with its certificate wait mark (chapter 1.2). -/
structure StagedJob where
  tag : Count
  waitMark : Bool
  comps : List LoadedComp
  deriving DecidableEq, Repr

/-- The active job; `running` false is AWAIT_POSITION (chapter 1.2). -/
structure ActiveJob where
  tag : Count
  running : Bool
  comps : List Comp
  deriving DecidableEq, Repr

/-- The job store. -/
structure JobStore where
  staged : Option StagedJob
  active : Option ActiveJob
  last : JobResult
  previous : JobResult
  deriving DecidableEq, Repr

/-! ### Wash circuits (R33, R36, R69, R73) -/

/-- The step record under construction (R36). -/
structure StepRecord where
  elapsed : Nat
  good : Nat
  /-- The dose accumulator, in 1/256 of a dose unit (R64). -/
  dose256 : Nat
  tMin : Nat
  tMax : Nat
  corrected : Nat
  failed : Nat
  pulses : Nat
  pauses : Nat
  deriving DecidableEq, Repr

/-- The record at the beginning of a step (R36). -/
def StepRecord.cleared : StepRecord := ⟨0, 0, 0, 255, 255, 0, 0, 0, 0⟩

/-- The sample set of an INSPECT run (R73). -/
structure SampleSet where
  n : Nat
  excess : Nat
  turbidity : Nat
  deriving DecidableEq, Repr

/-- The empty sample set (R73). -/
def SampleSet.cleared : SampleSet := ⟨0, 0, 0⟩

/-- What a circuit carries into RUN_OUT (R49): the verdict PASS, or the terminal state and reason. -/
inductive Carried where
  | pass
  | ends (state : CompState) (reason : ResultCode)
  deriving DecidableEq, Repr

/-- A wash circuit (R33). -/
structure Circuit where
  state : CircuitState
  comp : Nat
  step : Nat
  dropSel : Nat
  rcd : StepRecord
  samples : SampleSet
  entries : List StepEntry
  /-- The step has entered RUN since it began (implied by R50). -/
  entered : Bool
  /-- The step is the repeat step of a retry (implied by R80). -/
  retrying : Bool
  carried : Option Carried
  flowPulses : Nat
  heldQ : Nat
  spinning : Bool
  probeFault : Nat
  lastTemp : Nat
  lastStatus : ProbeStatus
  lastIncrement : Nat
  lastReturn : Nat
  lastSupply : Nat
  lastTurbidity : Nat
  dropWait : Option Nat
  stepSecond : Option Nat
  stallMonitor : Option Nat
  stallLimit : Option Nat
  sump : Option Nat
  runOut : Option Nat
  pause : Option Nat
  deriving DecidableEq, Repr

/-- A circuit after either reset, with its drop selector as given (R51, R70, R84). -/
def Circuit.reset (dropSel : Nat) : Circuit where
  state := .idle
  comp := 0
  step := 0
  dropSel := dropSel
  rcd := .cleared
  samples := .cleared
  entries := []
  entered := false
  retrying := false
  carried := none
  flowPulses := 0
  heldQ := 0
  spinning := false
  probeFault := 0
  lastTemp := 255
  lastStatus := .none
  lastIncrement := 0
  lastReturn := 0
  lastSupply := 0
  lastTurbidity := 0
  dropWait := none
  stepSecond := none
  stallMonitor := none
  stallLimit := none
  sump := none
  runOut := none
  pause := none

/-! ### Fill controller (R85) -/

/-- The stored trail values of the four lines (R95). -/
structure Trails where
  t1 : Nat
  t2 : Nat
  t3 : Nat
  t4 : Nat
  deriving DecidableEq, Repr

/-- The fill controller (R85), with the FILL_WAIT order it keeps (R16). -/
structure FillController where
  state : FillState
  comp : Nat
  line : Nat
  preset : Nat
  pulses : Nat
  /-- DEMAND has been asserted for the compartment at least once. -/
  started : Bool
  /-- FLOWING has been entered for the compartment (implied by R96, trail used). -/
  flowed : Bool
  trailUsed : Nat
  closePoint : Nat
  volumeAtClose : Nat
  closeKind : CloseKind
  interruptions : Nat
  /-- ms. -/
  duration : Nat
  dropSel : Nat
  trails : Trails
  order : List Nat
  dropWait : Option Nat
  skid : Option Nat
  noFlow : Option Nat
  runOut : Option Nat
  deriving DecidableEq, Repr

/-- The fill controller after a reset, with its trails and drop selector as given (R102). -/
def FillController.reset (trails : Trails) (dropSel : Nat) : FillController where
  state := .idle
  comp := 0
  line := 0
  preset := 0
  pulses := 0
  started := false
  flowed := false
  trailUsed := 0
  closePoint := 0
  volumeAtClose := 0
  closeKind := .none
  interruptions := 0
  duration := 0
  dropSel := dropSel
  trails := trails
  order := []
  dropWait := none
  skid := none
  noFlow := none
  runOut := none

/-! ### Draw admission unit (R103, R105, R107) -/

/-- Heat, flow, drain and a fill line (0 for none): a need, a commitment or an intent vector (R105). -/
structure Draws where
  heat : Nat
  flow : Nat
  drain : Nat
  line : Nat
  deriving DecidableEq, Repr

/-- Nothing drawn and no line. -/
def Draws.zero : Draws := ⟨0, 0, 0, 0⟩

/-- A claim (R105). -/
structure Claim where
  need : Draws
  committed : Draws
  state : ClaimState
  waitStart : Count
  shed : Bool
  commitTick : Option Count
  deriving DecidableEq, Repr

/-- A claim after reset (R126). -/
def Claim.reset : Claim := ⟨.zero, .zero, .idle, 0, false, none⟩

/-- The draw admission unit. -/
structure Admission where
  claimA : Claim
  claimB : Claim
  claimFill : Claim
  effHeat : Nat
  effFlow : Nat
  effDrain : Nat
  settle : Option Nat
  /-- Intents formed; also the number of the present intent (R109). -/
  intentCount : Nat
  announcedAge : Option Nat
  tick : Count
  announce : Option Nat
  listen : Option Nat
  deriving DecidableEq, Repr

/-- The draw admission unit after power-on reset (R126, R142). -/
def Admission.reset : Admission where
  claimA := .reset
  claimB := .reset
  claimFill := .reset
  effHeat := 0
  effFlow := 0
  effDrain := 0
  settle := none
  intentCount := 0
  announcedAge := none
  tick := 0
  announce := none
  listen := none

/-! ### Peer table (R133) -/

/-- An entry of the peer table (R133). -/
structure Peer where
  address : BitVec 4
  stale : Bool
  heard : Count
  bayCode : BitVec 4
  safeFlag : Bool
  leavingFlag : Bool
  derateSeen : Bool
  capSet : Byte
  mismatch : Bool
  mismatchReported : Bool
  committedHeat : Nat
  committedFlow : Nat
  committedDrain : Nat
  heldLines : BitVec 4
  intentHeat : Nat
  intentFlow : Nat
  intentDrain : Nat
  intentLine : Nat
  intentAge : Nat
  newestAge : Nat
  deriving DecidableEq, Repr

/-! ### Yard line unit (R144, R150, R153, R159) -/

/-- Clock recovery (R144): its state, the number of the current sample, the count of whole cells
without an edge; and what R144, R145 and R147 imply: whether the present cell holds an edge, an
outstanding lengthening or shortening by one sample, and the samples since the last adjusting edge
(saturating at 17). -/
structure Clock where
  locked : Bool
  sample : Nat
  quietCells : Nat
  edgeInCell : Bool
  lengthen : Bool
  shorten : Bool
  sinceAdjust : Nat
  deriving DecidableEq, Repr

/-- The receive framer (R150), with the own mark of R158 and the mark of a frame whose own mark was
cleared by a bit error. `ones` saturates at 7; `bits` are the destuffed bits known to be part of the
frame. R150 implies two more: in IDLE, that the last 0 taken followed at least seven 1s; in IN_FRAME,
that the last 0 taken is held back, as the first 0 of a closing flag would be. -/
structure Framer where
  inFrame : Bool
  ones : Nat
  armed : Bool
  held : Bool
  bits : List Bool
  lastDiscard : DiscardReason
  own : Bool
  afterBitError : Bool
  deriving DecidableEq, Repr

/-- The intent an announcement carries: its number and its age at assembly (R110). -/
structure IntentTag where
  number : Nat
  age : Nat
  deriving DecidableEq, Repr

/-- The pending own frame (R153). `taken` says that the attempt in progress carries this very content.
A LEAVE keeps which blocks have asked for it since it became pending (R157). -/
inductive PendingFrame where
  | empty
  | announce (content : List Byte) (intent : Option IntentTag) (taken : Bool)
  | leave (content : List Byte) (toSafeStop toReset : Bool) (taken : Bool)
  deriving DecidableEq, Repr

/-- The content of a set roll-call mark (R153). -/
structure RollCall where
  content : List Byte
  taken : Bool
  deriving DecidableEq, Repr

/-- Which frame an attempt carries (R153). -/
inductive SentFrame where
  | leave
  | rollCall
  | announce (intent : Option IntentTag)
  deriving DecidableEq, Repr

/-- An attempt in SENDING (R154): its frame, its content and the number of its cells begun; the bit
driven is the last of them, none before the first cell begins. -/
structure Attempt where
  frame : SentFrame
  content : List Byte
  cells : Nat
  deriving DecidableEq, Repr

/-- The yard line unit. In `window` a bad outcome is `true`, oldest first (R159). `quietOnes` counts the
1s taken since the last 0 or the bit that completed an abort, saturating at 8 (R152). -/
structure LineUnit where
  rate125 : Bool
  phaseShift : Bool
  clock : Clock
  framer : Framer
  free : Bool
  quietOnes : Nat
  pendingFrame : PendingFrame
  rollCall : Option RollCall
  hold : Bool
  attempt : Option Attempt
  lastOutcome : AttemptOutcome
  window : List Bool
  degraded : Bool
  deriving DecidableEq, Repr

/-- The yard line unit after either reset (R162). -/
def LineUnit.reset : LineUnit where
  rate125 := false
  phaseShift := false
  clock := ⟨false, 0, 0, false, false, false, 17⟩
  framer := ⟨false, 0, false, false, [], .none, false, false⟩
  free := false
  quietOnes := 0
  pendingFrame := .empty
  rollCall := none
  hold := false
  attempt := none
  lastOutcome := .none
  window := []
  degraded := false

/-! ### Certificate queue (R163) -/

/-- The certificate queue: the records as stored bytes, oldest first, and the active job's reservation. -/
structure CertQueue where
  records : List (List Byte)
  reservedRecords : Nat
  reservedBytes : Nat
  deriving DecidableEq, Repr

/-! ### Safe stop logic (R173, R177, R179) -/

/-- The cause set (R173). -/
structure CauseSet where
  estop : Bool
  pfw : Bool
  safeCmd : Bool
  clash : Bool
  deriving DecidableEq, Repr

/-- The empty cause set. -/
def CauseSet.empty : CauseSet := ⟨false, false, false, false⟩

/-- A wash circuit's part of the halt snapshot (R177). -/
structure CircuitSnapshot where
  comp : Nat
  step : Nat
  state : CircuitState
  dose : Nat
  elapsed : Nat
  good : Nat
  deriving DecidableEq, Repr

/-- The halt snapshot (R177). -/
structure Snapshot where
  cause : Cause
  time : Count
  left : BayState
  a : CircuitSnapshot
  b : CircuitSnapshot
  fillComp : Nat
  fillState : FillState
  fillVolume : Nat
  deriving DecidableEq, Repr

/-- The safe stop logic. -/
structure SafeStop where
  causes : CauseSet
  first : Option Cause
  snapshot : Option Snapshot
  silence : Silence
  override : Bool
  deriving DecidableEq, Repr

/-- The safe stop logic after either reset (R184, R196). -/
def SafeStop.reset : SafeStop := ⟨.empty, none, none, .quiet, false⟩

/-! ### Bay port and event queue (R185, R192, R193) -/

/-- A response: its status and its body (R185). -/
structure Response where
  status : Status
  body : List Byte
  deriving DecidableEq, Repr

/-- What the exchange in progress is: none, one that shifts out the prepared response, one begun in
PREPARING and answered NOT_READY (R187), or one cut by a power-on reset and not taken (R197). -/
inductive Exchange where
  | none
  | answering
  | notReady
  | notTaken
  deriving DecidableEq, Repr

/-- The bay port. -/
structure Port where
  exchange : Exchange
  preparing : Bool
  prepared : Response
  shiftOut : Option Response
  deriving DecidableEq, Repr

/-- The port after power-on reset (R197). -/
def Port.reset : Port := ⟨.none, false, ⟨.ok, []⟩, none⟩

/-- An event record (R193). -/
structure Event where
  kind : EventKind
  lost : Bool
  d0 : Byte
  d1 : Byte
  d2 : Byte
  time : Count
  deriving DecidableEq, Repr

/-- The event queue, oldest first, with its lost mark (R193). -/
structure EventQueue where
  records : List Event
  lost : Bool
  deriving DecidableEq, Repr

/-- The sticky alarm flags (R192). -/
structure Sticky where
  probeCorrected : Bool
  probeFailed : Bool
  spinnerStall : Bool
  badFrame : Bool
  deriving DecidableEq, Repr

/-- All four flags clear. -/
def Sticky.clear : Sticky := ⟨false, false, false, false⟩

/-! ### The whole part -/

/-- The state of the part. `tie`, `drawn` and `pending` are the model's own: how many free choices
between rows due in one millisecond and how many free details have been drawn, and the commands
waiting. -/
structure State where
  bay : BayState
  ms : Count
  ownAddr : Option (BitVec 4)
  sticky : Sticky
  config : Option Configuration
  store : RecipeStore
  pins : Pins
  frontEnd : FrontEnd
  jobs : JobStore
  circA : Circuit
  circB : Circuit
  fill : FillController
  adm : Admission
  peers : List Peer
  line : LineUnit
  certs : CertQueue
  safety : SafeStop
  leaveTimer : Option Nat
  events : EventQueue
  port : Port
  tie : Nat
  drawn : Nat
  pending : List Instr
  deriving DecidableEq, Repr

/-- No command of the manual stops the part, so no step ends in a fault: the type has no constructor
(a safe choice: nothing that runs on the hardware is cut short here). -/
inductive Fault where
  deriving DecidableEq, Repr

/-- Why a command is refused. -/
inductive Refusal where
  /-- Raised by `exec` alone, for a row of the table that has no meaning yet (safe: nothing is claimed
  of such a row). -/
  | notModelled (mnemonic : String)
  deriving DecidableEq, Repr

/-- The recipe store after power-on reset (R28). -/
def RecipeStore.reset : RecipeStore where
  recipes := List.replicate 16 none
  matrix := List.replicate 16 (List.replicate 16 .forbidden)
  curves := List.replicate 4 (List.replicate 16 0)

/-- The front end after power-on reset (R70). -/
def FrontEnd.reset : FrontEnd := ⟨⟨255, 255, 0, 0, 0⟩, ⟨255, 255, 0, 0, 0⟩⟩

/-- The job store after either reset (R26). -/
def JobStore.reset : JobStore := ⟨none, none, .none, .none⟩

/-- The machine after power-on reset (R197, with each block's own rule: R26, R28, R51, R70, R102,
R126, R142, R162, R171, R184). The levels of the input pins are the model's (notes/assumptions/11.md). -/
def State.reset : State where
  bay := .setup
  ms := 0
  ownAddr := none
  sticky := .clear
  config := none
  store := .reset
  pins := ⟨false, false, false, false, false, 0, 0, 0, true⟩
  frontEnd := .reset
  jobs := .reset
  circA := .reset 1
  circB := .reset 5
  fill := .reset ⟨0, 0, 0, 0⟩ 1
  adm := .reset
  peers := []
  line := .reset
  certs := ⟨[], 0, 0⟩
  safety := .reset
  leaveTimer := none
  events := ⟨[], false⟩
  port := .reset
  tie := 0
  drawn := 0
  pending := []

end Sys2Proof.Machine
end

