-- ==== Sys2Proof/Machine/Ops.lean ====
section
/-!
DEFINITION. The named operations over the blocks that every rule uses: access to a circuit, a claim, a
compartment and a pin by its name or number; saturating counts and timers (R1, R3); raising an event
(R193); preparing a response (R185). Every read and write of these goes through here.
-/

namespace Sys2Proof.Machine

/-- One more, staying at the limit (R1). -/
def satInc (n limit : Nat) : Nat := min (n + 1) limit

/-- The nearer end of the range when outside it (R1). -/
def clamp (lo hi n : Nat) : Nat := max lo (min hi n)

/-- The start of a single-pass, non-retriggerable timer: no effect while it runs (R3). -/
def startTimer (t : Option Nat) (length : Nat) : Option Nat :=
  match t with
  | some left => some left
  | none => some length

/-- Whether a timer runs. -/
def timerRuns (t : Option Nat) : Bool := t.isSome

/-- The configuration in force; `blank` only in SETUP before any CONFIGURE (R190). -/
def State.cfg (s : State) : Configuration := s.config.getD .blank

/-- The other names of a wash circuit's side (R105). -/
def sideConsumer : Side → Consumer
  | .a => .a
  | .b => .b

/-- The wash circuit behind a claim, if it is one (R105). -/
def consumerSide : Consumer → Option Side
  | .a => some .a
  | .b => some .b
  | .fill => none

/-- The wash circuit that serves a drop: A drops 1..4, B drops 5..8 (R14). -/
def servesDrop (c : Side) (drop : Nat) : Bool :=
  match c with
  | .a => decide (1 ≤ drop ∧ drop ≤ 4)
  | .b => decide (5 ≤ drop ∧ drop ≤ 8)

/-- Circuit A or B. -/
def State.circ (s : State) (c : Side) : Circuit :=
  match c with
  | .a => s.circA
  | .b => s.circB

/-- Writes circuit A or B. -/
def State.setCirc (s : State) (c : Side) (x : Circuit) : State :=
  match c with
  | .a => { s with circA := x }
  | .b => { s with circB := x }

/-- Changes circuit A or B. -/
def State.modCirc (s : State) (c : Side) (f : Circuit → Circuit) : State :=
  s.setCirc c (f (s.circ c))

/-- Claim A, B or FILL (R105). -/
def State.claim (s : State) (k : Consumer) : Claim :=
  match k with
  | .a => s.adm.claimA
  | .b => s.adm.claimB
  | .fill => s.adm.claimFill

/-- Writes claim A, B or FILL. -/
def State.setClaim (s : State) (k : Consumer) (x : Claim) : State :=
  match k with
  | .a => { s with adm := { s.adm with claimA := x } }
  | .b => { s with adm := { s.adm with claimB := x } }
  | .fill => { s with adm := { s.adm with claimFill := x } }

/-- The circuit's own channels of the front end (R52). -/
def State.channels (s : State) (c : Side) : Channels :=
  match c with
  | .a => s.frontEnd.a
  | .b => s.frontEnd.b

/-- The circuit's configured flow meter factor, pulses per litre (R38). -/
def State.meterFactor (s : State) (c : Side) : Nat :=
  match c with
  | .a => s.cfg.meterA
  | .b => s.cfg.meterB

/-- The circuit's configured spinner pulses per revolution (R46). -/
def State.pulsesPerRev (s : State) (c : Side) : Nat :=
  match c with
  | .a => s.cfg.pulsesPerRevA
  | .b => s.cfg.pulsesPerRevB

/-- The level of pin `k`, numbered from 1; there is no pin 0. -/
def pinLevel {w : Nat} (v : BitVec w) (k : Nat) : Bool := decide (1 ≤ k) && v.getLsbD (k - 1)

/-- Whether CONNd is asserted (R14). -/
def State.conn (s : State) (drop : Nat) : Bool := pinLevel s.pins.conn drop

/-- Whether HIGHd is asserted (R14). -/
def State.high (s : State) (drop : Nat) : Bool := pinLevel s.pins.high drop

/-- Whether DELIV_L is asserted (R88). -/
def State.deliv (s : State) (line : Nat) : Bool := pinLevel s.pins.deliv line

/-- A pin vector with pin `k` (from 1) at a level. -/
def setPin {w : Nat} (v : BitVec w) (k : Nat) (level : Bool) : BitVec w :=
  if level then v ||| (1#w <<< (k - 1)) else v &&& ~~~(1#w <<< (k - 1))

/-- Whether the active job is RUNNING (chapter 1.2). -/
def State.jobRunning (s : State) : Bool :=
  match s.jobs.active with
  | some j => j.running
  | none => false

/-- The compartments of the active job, none while the ACTIVE slot is EMPTY. -/
def State.comps (s : State) : List Comp :=
  match s.jobs.active with
  | some j => j.comps
  | none => []

/-- Compartment `i` of the active job, numbered from 1 (R5). -/
def State.comp? (s : State) (i : Nat) : Option Comp :=
  match i with
  | 0 => none
  | k + 1 => s.comps[k]?

/-- Changes compartment `i` of the active job. -/
def State.modComp (s : State) (i : Nat) (f : Comp → Comp) : State :=
  match s.jobs.active, i with
  | some j, k + 1 =>
    { s with jobs := { s.jobs with active := some { j with comps := j.comps.modify k f } } }
  | _, _ => s

/-- The number, from `i`, of the first compartment that meets `p`. -/
def firstComp (p : Comp → Bool) (i : Nat) : List Comp → Option Nat
  | [] => none
  | c :: rest => if p c then some i else firstComp p (i + 1) rest

/-- The compartment of the active job with a nonzero drop position `drop`, if any; R7 check 4 keeps it
unique. -/
def State.compAtDrop (s : State) (drop : Nat) : Option Nat :=
  firstComp (fun c => decide (c.loaded.drop = drop)) 1 s.comps

/-- Terminal compartment states (R20). -/
def CompState.terminal : CompState → Bool
  | .done => true
  | .skipped => true
  | .failed => true
  | .rejected => true
  | .aborted => true
  | .queued => false
  | .waitDrop => false
  | .washing => false
  | .fillWait => false
  | .filling => false
  | .ending => false

/-- The states in which the bay works with the yard: events are raised (R193), frames are taken
(R134), the announcement timer and the millisecond count run (R127, R189). -/
def BayState.working : BayState → Bool
  | .listen => true
  | .live => true
  | .safe => true
  | .setup => false
  | .resetting => false

/-- Raises an event with its three details (R193): appended at the tail with LOST when the lost mark is
set, or dropped with the mark set when 32 wait. None is raised in SETUP and RESETTING. -/
def raise (k : EventKind) (d0 d1 d2 : Nat) (s : State) : State :=
  if s.bay.working then
    if s.events.records.length < 32 then
      { s with events :=
          { records := s.events.records ++
              [⟨k, s.events.lost, BitVec.ofNat 8 d0, BitVec.ofNat 8 d1, BitVec.ofNat 8 d2, s.ms⟩]
            lost := false } }
    else { s with events := { s.events with lost := true } }
  else s

/-- The bay state with which a wash step cannot run (R47). -/
def State.inSafe (s : State) : Bool := decide (s.bay = .safe)

end Sys2Proof.Machine
end

