-- ==== Sys2Proof/Machine/Operands.lean ====
section
/-!
DEFINITION. The bytes of requests and responses (chapter 12): reading and writing multi-byte fields,
the shared codes of chapter 12.1, and the records the host writes, with their checks in the order the
rules give (R7, R30, R31, R60, R190).
-/

namespace Sys2Proof.Machine

/-! ### Bytes -/

/-- The byte at an offset of a body, 0 beyond its end. -/
def byteAt (b : List Byte) (i : Nat) : Nat := (b.getD i 0).toNat

/-- The two-byte field at an offset, low byte first. -/
def wordAt (b : List Byte) (i : Nat) : Nat := byteAt b i + 256 * byteAt b (i + 1)

/-- The four-byte field at an offset, low byte first. -/
def countAt (b : List Byte) (i : Nat) : Count :=
  BitVec.ofNat 32 (wordAt b i + 65536 * wordAt b (i + 2))

/-- A one-byte field. -/
def put1 (n : Nat) : List Byte := [BitVec.ofNat 8 n]

/-- A two-byte field, low byte first. -/
def put2 (n : Nat) : List Byte := [BitVec.ofNat 8 n, BitVec.ofNat 8 (n / 256)]

/-- A two-byte field of a value written saturated (R202). -/
def putSat2 (n : Nat) : List Byte := put2 (min n 65535)

/-- A four-byte field, low byte first. -/
def put4 (n : Nat) : List Byte :=
  [BitVec.ofNat 8 n, BitVec.ofNat 8 (n / 256), BitVec.ofNat 8 (n / 65536),
    BitVec.ofNat 8 (n / 16777216)]

/-- A byte of flags: each flag with the value of its bit. -/
def flagByte (fs : List (Bool × Nat)) : Nat :=
  (fs.map fun f => if f.1 then f.2 else 0).sum

/-! ### Shared codes (chapter 12.1) -/

def BayState.code : BayState → Nat
  | .setup => 0 | .listen => 1 | .live => 2 | .safe => 3 | .resetting => 4

def Cause.bit : Cause → Nat
  | .estop => 1 | .pfw => 2 | .safeCmd => 4 | .clash => 8

def CauseSet.code (c : CauseSet) : Nat :=
  flagByte [(c.estop, 1), (c.pfw, 2), (c.safeCmd, 4), (c.clash, 8)]

def CompState.code : CompState → Nat
  | .queued => 0 | .waitDrop => 1 | .washing => 2 | .fillWait => 3 | .filling => 4
  | .ending => 5 | .done => 6 | .skipped => 7 | .failed => 8 | .rejected => 9 | .aborted => 10

def ResultCode.code : ResultCode → Nat
  | .none => 0 | .done => 1 | .drainLimit => 2 | .cut => 3 | .pass => 4 | .timeShort => 5
  | .doseShort => 6 | .spinner => 7 | .probe => 8 | .failCoverage => 9 | .failResidue => 10
  | .noDrop => 11 | .dropLost => 12 | .host => 13 | .reset => 14 | .filled => 15 | .short => 16
  | .over => 17 | .highLevel => 18 | .noSkid => 19 | .noFlow => 20 | .skidStopped => 21

def StepKind.code : StepKind → Nat
  | .rinse => 1 | .wash => 2 | .sanitize => 3 | .drain => 4 | .inspect => 5

def CircuitState.code : CircuitState → Nat
  | .idle => 0 | .waitDrop => 1 | .admitting => 2 | .running => 3 | .paused => 4 | .runOut => 5

def FillState.code : FillState → Nat
  | .idle => 0 | .waitDrop => 1 | .admitting => 2 | .awaitSkid => 3 | .flowing => 4
  | .closing => 5 | .interrupted => 6

def CloseKind.code : CloseKind → Nat
  | .none => 0 | .normal => 1 | .high => 2 | .abort => 3 | .dropLost => 4

def ClaimState.code : ClaimState → Nat
  | .idle => 0 | .waiting => 1 | .intent => 2 | .satisfied => 3

def ownerCode : Option Consumer → Nat
  | none => 0 | some .a => 1 | some .b => 2 | some .fill => 3

def circuitCode : Option Side → Nat
  | none => 0 | some .a => 1 | some .b => 2

def JobResult.code : JobResult → Nat
  | .none => 0 | .pass => 1 | .fail => 2

def DiscardReason.code : DiscardReason → Nat
  | .none => 0 | .long => 1 | .short => 2 | .align => 3 | .crc => 4 | .format => 5 | .aborted => 6
  | .sync => 7 | .bitError => 8

def AttemptOutcome.code : AttemptOutcome → Nat
  | .none => 0 | .sent => 1 | .lost => 2 | .bitError => 3

def ProbeStatus.code : ProbeStatus → Nat
  | .none => 0 | .agree => 1 | .corrected => 2 | .failed => 3

/-- Event kind codes (chapter 12.4). -/
def EventKind.code : EventKind → Nat
  | .jobPromoted => 1 | .certWait => 2 | .jobEnded => 3 | .compEnded => 4 | .stepEnded => 5
  | .claimShed => 6 | .derateOn => 7 | .derateOff => 8 | .peerJoined => 9 | .peerStale => 10
  | .peerGone => 11 | .peerLeft => 12 | .capSetMismatch => 13 | .lineDegraded => 14
  | .lineGood => 15 | .safeEntered => 16 | .safeLeft => 17 | .certReady => 18

/-- The recipe byte of a certificate header: 0xFF for NONE and for drop 0 (R201). -/
def StoredEntry.certCode : StoredEntry → Nat
  | .absent => 255 | .noRecipe => 255 | .recipe i => i

/-- The stored matrix entry of READ_JOB: a compartment with drop 0 stores none, and its byte carries
no value (R5, R200). -/
def StoredEntry.jobCode : StoredEntry → Nat
  | .absent => 0 | .noRecipe => 255 | .recipe i => i

/-- The kind a code names (chapter 12.1). -/
def kindOfCode : Nat → Option StepKind
  | 1 => some .rinse | 2 => some .wash | 3 => some .sanitize | 4 => some .drain
  | 5 => some .inspect | _ => none

/-- The medium a code names (chapter 12.1). -/
def mediumOfCode : Nat → Option Medium
  | 0 => some .none | 1 => some .water | 2 => some .hotWater | 3 => some .detergent
  | 4 => some .acid | 5 => some .sanitizer | _ => none

/-- The matrix entry a code names (chapter 12.1, R31). -/
def matrixOfCode (n : Nat) : Option MatrixEntry :=
  if n ≤ 15 then some (.recipe n)
  else if n = 254 then some .forbidden
  else if n = 255 then some .noRecipe
  else none

/-! ### The recipe store by index (R28) -/

/-- The matrix entry for a prior class and a next class. -/
def RecipeStore.entry (st : RecipeStore) (prior next : Nat) : MatrixEntry :=
  (st.matrix.getD prior []).getD next .forbidden

/-- The recipe in a slot, none when the slot is empty. -/
def RecipeStore.recipe? (st : RecipeStore) (i : Nat) : Option Recipe :=
  (st.recipes[i]?).join

/-- The weight of a band in a curve (R59). -/
def RecipeStore.weight (st : RecipeStore) (curve band : Nat) : Nat :=
  (st.curves.getD curve []).getD band 0

/-! ### LOAD_JOB (R5, R7) -/

/-- Checks 3 to 8 of R7 on compartment `i`, after the compartments `earlier` of the same record: the
failing check's code, or the entry with its stored matrix entry. -/
def checkComp (st : RecipeStore) (body : List Byte) (i : Nat) (earlier : List LoadedComp) :
    Except Nat LoadedComp :=
  let o := 5 + 6 * (i - 1)
  let prior := byteAt body o
  let next := byteAt body (o + 1)
  let drop := byteAt body (o + 2)
  let line := byteAt body (o + 3)
  let volume := wordAt body (o + 4)
  if prior > 15 || next > 15 then .error 3
  else if drop > 8 || (drop != 0 && earlier.any fun c => c.drop == drop) then .error 4
  else if (1 ≤ line && line ≤ 4) && drop == 0 then .error 5
  else if line > 4 || ((1 ≤ line) && (volume == 0 || volume > 40000)) then .error 6
  else
    let kept := if line = 0 then 0 else volume
    if drop = 0 then .ok ⟨prior, next, drop, line, kept, .absent⟩
    else
      match st.entry prior next with
      | .forbidden => .error 7
      | .noRecipe => .ok ⟨prior, next, drop, line, kept, .noRecipe⟩
      | .recipe r =>
        if (st.recipe? r).isNone then .error 8
        else .ok ⟨prior, next, drop, line, kept, .recipe r⟩

/-- The compartment checks in compartment order, `todo` compartments from number `i` on (R7). -/
def checkComps (st : RecipeStore) (body : List Byte) :
    Nat → Nat → List LoadedComp → Except (Nat × Nat) (List LoadedComp)
  | 0, _, earlier => .ok earlier
  | todo + 1, i, earlier =>
    match checkComp st body i earlier with
    | .error code => .error (i, code)
    | .ok c => checkComps st body todo (i + 1) (earlier ++ [c])

/-- The checks of LOAD_JOB in order (R7): the compartment named and the check code of the first that
fails, or the job to stage. -/
def checkJob (st : RecipeStore) (body : List Byte) : Except (Nat × Nat) StagedJob :=
  let n := byteAt body 4
  if body.length < 5 then .error (0, 2)
  else if n = 0 ∨ n > 6 then .error (0, 1)
  else if body.length ≠ 5 + 6 * n then .error (0, 2)
  else
    match checkComps st body n 1 [] with
    | .error e => .error e
    | .ok comps => .ok ⟨countAt body 0, false, comps⟩

/-! ### WRITE_RECIPE (R29, R30) -/

/-- The media each kind takes (R29). -/
def mediumAllowed : StepKind → Medium → Bool
  | .rinse, .water => true
  | .rinse, .hotWater => true
  | .wash, .detergent => true
  | .wash, .acid => true
  | .sanitize, .sanitizer => true
  | .inspect, .water => true
  | .drain, .none => true
  | _, _ => false

/-- Whether a kind has a dose (R29). -/
def StepKind.dosed : StepKind → Bool
  | .wash => true
  | .sanitize => true
  | .rinse => false
  | .drain => false
  | .inspect => false

/-- Whether a kind is RINSE, WASH or SANITIZE, the kinds whose revolutions count (R46). -/
def StepKind.washes : StepKind → Bool
  | .rinse => true
  | .wash => true
  | .sanitize => true
  | .drain => false
  | .inspect => false

/-- The step record at an offset, each field a kind does not use stored as 0 (R29). -/
def stepAt (body : List Byte) (o : Nat) (kind : StepKind) (medium : Medium) : Step :=
  let isDrain := decide (kind = .drain)
  let isInspect := decide (kind = .inspect)
  let dosed := kind.dosed
  { kind := kind
    medium := medium
    heat := if isDrain then 0 else wordAt body (o + 2)
    flow := if isDrain then 0 else wordAt body (o + 4)
    drain := wordAt body (o + 6)
    qMin := if isDrain then 0 else wordAt body (o + 8)
    target := if isDrain then 0 else wordAt body (o + 10)
    maxTime := if isInspect then 0 else wordAt body (o + 12)
    holdLimit := wordAt body (o + 14)
    curve := if dosed then byteAt body (o + 16) else 0
    minConc := if dosed then wordAt body (o + 17) else 0
    turbidityLimit := if isInspect then wordAt body (o + 19) else 0
    excessLimit := if isInspect then wordAt body (o + 21) else 0 }

/-- Checks 8 to 14 of R30 on a step whose kind, place and medium are right. -/
def checkStepFields (st : Step) : Option Nat :=
  let isDrain := decide (st.kind = .drain)
  let isInspect := decide (st.kind = .inspect)
  let isRinse := decide (st.kind = .rinse)
  if st.heat > 4000 || st.flow > 2000 || st.drain > 3000 then some 8
  else if !isDrain && (st.flow == 0 || st.qMin > st.flow) then some 9
  else if !isDrain && st.target == 0 then some 10
  else if (!isInspect && st.maxTime == 0) || (isRinse && st.maxTime < st.target) then some 11
  else if st.holdLimit > 3600 then some 12
  else if st.kind.dosed && st.curve > 3 then some 13
  else if isInspect && st.turbidityLimit > 9999 then some 14
  else none

/-- Checks 5 to 14 of R30 on step `i` of `k`: the failing check's code, or the step as stored. -/
def checkStep (body : List Byte) (i k : Nat) : Except Nat Step :=
  let o := 6 + 23 * (i - 1)
  match kindOfCode (byteAt body o) with
  | none => .error 5
  | some kind =>
    if decide (kind = .inspect) != decide (i = k) then .error 6
    else
      match mediumOfCode (byteAt body (o + 1)) with
      | none => .error 7
      | some medium =>
        if !mediumAllowed kind medium then .error 7
        else
          let st := stepAt body o kind medium
          match checkStepFields st with
          | some code => .error code
          | none => .ok st

/-- The step checks in step order, `todo` steps from number `i` on (R30). -/
def checkSteps (body : List Byte) (k : Nat) :
    Nat → Nat → List Step → Except (Nat × Nat) (List Step)
  | 0, _, done => .ok done
  | todo + 1, i, done =>
    match checkStep body i k with
    | .error code => .error (i, code)
    | .ok st => checkSteps body k todo (i + 1) (done ++ [st])

/-- The checks of WRITE_RECIPE in order (R30): the step named and the code of the first that fails, or
the slot index and the recipe. -/
def checkRecipe (body : List Byte) : Except (Nat × Nat) (Nat × Recipe) :=
  let index := byteAt body 0
  let k := byteAt body 1
  let repeatIndex := byteAt body 2
  let retry := byteAt body 3
  if body.length < 2 then .error (0, 3)
  else if index > 15 then .error (0, 1)
  else if k = 0 ∨ k > 8 then .error (0, 2)
  else if body.length ≠ 6 + 23 * k then .error (0, 3)
  else if retry > 3 then .error (0, 4)
  else
    match checkSteps body k k 1 [] with
    | .error e => .error e
    | .ok steps =>
      if 1 ≤ retry ∧ ¬(1 ≤ repeatIndex ∧ repeatIndex ≤ k - 1) then .error (0, 15)
      else .ok (index, ⟨if retry = 0 then 0 else repeatIndex, retry, wordAt body 4, steps⟩)

/-! ### WRITE_MATRIX (R31) and WRITE_WEIGHTS (R60) -/

/-- The entries of a row from next class `j` on, or the next class of the first bad one (R31). -/
def matrixRow (j : Nat) : List Byte → Except Nat (List MatrixEntry)
  | [] => .ok []
  | b :: rest =>
    match matrixOfCode b.toNat with
    | none => .error j
    | some e =>
      match matrixRow (j + 1) rest with
      | .error k => .error k
      | .ok es => .ok (e :: es)

/-- The checks of WRITE_MATRIX in order (R31): the detail of the first that fails, or the prior class
and the row. -/
def checkMatrix (body : List Byte) : Except (Nat × Nat) (Nat × List MatrixEntry) :=
  if body.length ≠ 17 then .error (255, 1)
  else if byteAt body 0 > 15 then .error (255, 2)
  else
    match matrixRow 0 (body.drop 1) with
    | .error j => .error (j, 3)
    | .ok row => .ok (byteAt body 0, row)

/-- The checks of WRITE_WEIGHTS in order (R60): the code of the first that fails, or the curve index
and its weights. -/
def checkWeights (body : List Byte) : Except Nat (Nat × List Nat) :=
  if body.length ≠ 17 then .error 1
  else if byteAt body 0 > 3 then .error 2
  else .ok (byteAt body 0, (body.drop 1).map BitVec.toNat)

/-! ### CONFIGURE (R190) -/

/-- The configuration record as the 30 bytes carry it (chapter 12.2). -/
def configAt (b : List Byte) : Configuration where
  capSet := byteAt b 0
  bitRate := byteAt b 1
  period := wordAt b 2
  capHeat := wordAt b 4
  capFlow := wordAt b 6
  capDrain := wordAt b 8
  heatPercent := byteAt b 10
  flowPercent := byteAt b 11
  meterA := byteAt b 12
  meterB := byteAt b 13
  pulsesPerRevA := byteAt b 14
  pulsesPerRevB := byteAt b 15
  stallTime := wordAt b 16
  stallLimit := byteAt b 18
  runOutTime := byteAt b 19
  probeFaultLimit := byteAt b 20
  dropWaitLimit := wordAt b 21
  fillMeter := byteAt b 23
  fillTolerance := wordAt b 24
  fillRunOut := byteAt b 26
  skidTimeout := byteAt b 27
  noFlowTime := byteAt b 28
  phaseShift := byteAt b 29

/-- Each field brought within its range (R190, table). -/
def Configuration.clamped (c : Configuration) : Configuration where
  capSet := c.capSet
  bitRate := if c.bitRate = 0 then 0 else 1
  period := clamp 250 2000 (c.period / 50 * 50)
  capHeat := clamp 0 4000 c.capHeat
  capFlow := clamp 0 2000 c.capFlow
  capDrain := clamp 0 3000 c.capDrain
  heatPercent := clamp 0 100 c.heatPercent
  flowPercent := clamp 0 100 c.flowPercent
  meterA := clamp 1 100 c.meterA
  meterB := clamp 1 100 c.meterB
  pulsesPerRevA := clamp 1 8 c.pulsesPerRevA
  pulsesPerRevB := clamp 1 8 c.pulsesPerRevB
  stallTime := clamp 500 5000 c.stallTime
  stallLimit := clamp 5 120 c.stallLimit
  runOutTime := clamp 0 120 c.runOutTime
  probeFaultLimit := clamp 5 120 c.probeFaultLimit
  dropWaitLimit := clamp 0 3600 c.dropWaitLimit
  fillMeter := clamp 1 100 c.fillMeter
  fillTolerance := clamp 0 500 c.fillTolerance
  fillRunOut := clamp 1 20 c.fillRunOut
  skidTimeout := clamp 1 60 c.skidTimeout
  noFlowTime := clamp 2 30 c.noFlowTime
  phaseShift := if c.phaseShift = 0 then 0 else 1

/-- The 30 bytes of a configuration record (chapter 12.2). -/
def Configuration.bytes (c : Configuration) : List Byte :=
  put1 c.capSet ++ put1 c.bitRate ++ put2 c.period ++ put2 c.capHeat ++ put2 c.capFlow ++
  put2 c.capDrain ++ put1 c.heatPercent ++ put1 c.flowPercent ++ put1 c.meterA ++ put1 c.meterB ++
  put1 c.pulsesPerRevA ++ put1 c.pulsesPerRevB ++ put2 c.stallTime ++ put1 c.stallLimit ++
  put1 c.runOutTime ++ put1 c.probeFaultLimit ++ put2 c.dropWaitLimit ++ put1 c.fillMeter ++
  put2 c.fillTolerance ++ put1 c.fillRunOut ++ put1 c.skidTimeout ++ put1 c.noFlowTime ++
  put1 c.phaseShift

end Sys2Proof.Machine
end

