-- ==== Sys2Proof/Machine/Flags.lean ====
section
/-!
DEFINITION. The flags of the part: the sticky alarm flags (R192) with the rules that set them, and the
flag bytes of STATUS, READ_JOB and the frames (chapter 12).
-/

namespace Sys2Proof.Machine

/-- Sets "probe corrected" or "probe failed" from the status of a reconciled second (R57). -/
def flagProbe (st : ProbeStatus) (s : State) : State :=
  match st with
  | .corrected => { s with sticky := { s.sticky with probeCorrected := true } }
  | .failed => { s with sticky := { s.sticky with probeFailed := true } }
  | .agree => s
  | .none => s

/-- Sets "spinner stall" (R44). -/
def flagStall (s : State) : State := { s with sticky := { s.sticky with spinnerStall := true } }

/-- Sets "bad line frame" (R151, R156). -/
def flagBadFrame (s : State) : State := { s with sticky := { s.sticky with badFrame := true } }

/-- The sticky byte of STATUS. -/
def Sticky.code (f : Sticky) : Nat :=
  flagByte [(f.probeCorrected, 1), (f.probeFailed, 2), (f.spinnerStall, 4), (f.badFrame, 8)]

/-- The flags byte of STATUS. -/
def State.statusFlags (s : State) : Nat :=
  flagByte [(s.config.isSome, 1), (s.jobs.staged.isNone, 2), (s.jobs.active.isNone, 4),
    (s.pins.derate, 8), (s.line.degraded, 16)]

/-- Whether an own frame or a roll call is pending (R153). -/
def LineUnit.somethingPending (l : LineUnit) : Bool :=
  decide (l.pendingFrame ≠ .empty) || l.rollCall.isSome

/-- The transmit state's code: 0 IDLE, 1 WAIT_IDLE, 2 SENDING (R153, R154). -/
def LineUnit.transmitCode (l : LineUnit) : Nat :=
  if l.attempt.isSome then 2 else if l.somethingPending then 1 else 0

/-- The flags byte of the yard line unit in READ_JOB. -/
def LineUnit.flags (l : LineUnit) : Nat :=
  flagByte [(l.clock.locked, 1), (l.framer.inFrame, 2), (l.free, 4), (l.rollCall.isSome, 8),
    (l.hold, 16), (l.degraded, 32)]

/-- The class of the pending own frame in READ_JOB. -/
def PendingFrame.code : PendingFrame → Nat
  | .empty => 0
  | .announce _ _ _ => 1
  | .leave _ _ _ _ => 2

/-- The number of bad outcomes in the line-health window (R159). -/
def LineUnit.badCount (l : LineUnit) : Nat := l.window.count true

/-- The state-and-flags byte of an own ANNOUNCE or LEAVE (R123, R124). -/
def State.announcedFlags (s : State) (leaving : Bool) : Nat :=
  s.bay.code + flagByte [(s.inSafe, 16), (leaving, 32), (s.pins.derate, 64)]

/-- The state-and-flags byte of a peer as announced (READ_PEERS). -/
def Peer.flags (p : Peer) : Nat :=
  p.bayCode.toNat + flagByte [(p.safeFlag, 16), (p.leavingFlag, 32), (p.derateSeen, 64)]

end Sys2Proof.Machine
end

