-- ==== Sys2Proof/Machine/Claims.lean ====
section
/-!
DEFINITION. The draw admission unit's accounts (chapter 6): effective capacities (R104), claims and
need changes (R105, R108), ages (R107), the choice of an intent (R109), the sums of the admission test
(R113 to R115), the commit (R116), the zeroing at SAFE (R118), the shedding decision (R119 to R121) and
the contents of the own frames (R123, R124, R129).
-/

namespace Sys2Proof.Machine

/-- The three quantity resources (R103). -/
inductive Quantity where
  | heat
  | flow
  | drain
  deriving DecidableEq, Repr

/-- The amount of a quantity in a set of draws. -/
def Draws.amount (d : Draws) : Quantity → Nat
  | .heat => d.heat
  | .flow => d.flow
  | .drain => d.drain

/-- A peer's announced committed draw. -/
def Peer.committedIn (p : Peer) : Quantity → Nat
  | .heat => p.committedHeat
  | .flow => p.committedFlow
  | .drain => p.committedDrain

/-- A peer's announced intent draw. -/
def Peer.intentIn (p : Peer) : Quantity → Nat
  | .heat => p.intentHeat
  | .flow => p.intentFlow
  | .drain => p.intentDrain

/-- The effective capacity of a quantity. -/
def Admission.eff (a : Admission) : Quantity → Nat
  | .heat => a.effHeat
  | .flow => a.effFlow
  | .drain => a.effDrain

/-- A capacity reduced to a percentage when DERATE is asserted (R104). -/
def derated (asserted : Bool) (cap percent : Nat) : Nat :=
  if asserted then cap * percent / 100 else cap

/-- The effective capacities from the configuration and the level of DERATE (R104). -/
def Admission.withCapacities (a : Admission) (c : Configuration) (asserted : Bool) : Admission :=
  { a with
    effHeat := derated asserted c.capHeat c.heatPercent
    effFlow := derated asserted c.capFlow c.flowPercent
    effDrain := c.capDrain }

/-- Recomputes the effective capacities (R104). -/
def recomputeCapacities (s : State) : State :=
  { s with adm := s.adm.withCapacities s.cfg s.pins.derate }

/-! ### Claims (R105 to R108) -/

/-- The lower of two draws in each quantity; the line stays when the need names it (R108 step 1). -/
def Draws.lowered (committed need : Draws) : Draws where
  heat := min committed.heat need.heat
  flow := min committed.flow need.flow
  drain := min committed.drain need.drain
  line := if committed.line = need.line then committed.line else 0

/-- A claim after a need change to a different value, `tick` being the own tick count (R108). The
commit tick is none when nothing is held (R105, notes/assumptions/19.md). -/
def Claim.changed (c : Claim) (tick : Count) (need : Draws) : Claim :=
  let com := c.committed.lowered need
  let kept := if com = .zero then none else c.commitTick
  if need = .zero then
    { c with need := need, committed := com, state := .idle, shed := false, commitTick := none }
  else if com = need then
    { c with need := need, committed := com, state := .satisfied, commitTick := kept }
  else
    { c with
      need := need
      committed := com
      state := .waiting
      commitTick := kept
      waitStart :=
        match c.state with
        | .waiting => c.waitStart
        | .intent => c.waitStart
        | .idle => tick
        | .satisfied => tick }

/-- The settle window stopped and no announced age: the present intent is over (R108, R117, R121). -/
def Admission.withoutIntent (a : Admission) : Admission :=
  { a with settle := none, announcedAge := none }

/-- Withdraws the present intent. -/
def dropIntent (s : State) : State := { s with adm := s.adm.withoutIntent }

/-- A need change (R108). -/
def needChange (k : Consumer) (need : Draws) (s : State) : State :=
  let c := s.claim k
  if need = c.need then s
  else
    let s1 := if c.state = .intent then dropIntent s else s
    s1.setClaim k (c.changed s.adm.tick need)

/-- The drain-only value of R49 for a claim. -/
def Claim.drainOnly (c : Claim) : Draws := ⟨0, 0, c.committed.drain, 0⟩

/-- Whether the consumer treats the claim as granted (R35, R106). -/
def Claim.granted (c : Claim) : Bool :=
  decide (c.state = .satisfied) || decide (c.state = .idle)

/-- The intent vector of a claim (R105). -/
def Claim.intent (c : Claim) : Draws where
  heat := c.need.heat - c.committed.heat
  flow := c.need.flow - c.committed.flow
  drain := c.need.drain - c.committed.drain
  line := if c.need.line = c.committed.line then 0 else c.need.line

/-- A claim zeroed at the entry into SAFE (R118). -/
def Claim.zeroed (c : Claim) (tick : Count) : Claim :=
  { c with
    committed := .zero
    commitTick := none
    waitStart := if c.state = .satisfied then tick else c.waitStart
    state :=
      match c.state with
      | .idle => .idle
      | .waiting => .waiting
      | .intent => .waiting
      | .satisfied => .waiting }

/-- A claim committed whole (R116). -/
def Claim.commit (c : Claim) (tick : Count) : Claim :=
  { c with committed := c.need, state := .satisfied, shed := false, commitTick := some tick }

/-- A claim after a shed (R121). -/
def Claim.afterShed (c : Claim) (tick : Count) : Claim :=
  { c with
    committed := .zero, shed := true, state := .waiting, waitStart := tick, commitTick := none }

/-- The three claims with their names, in the order A, B, FILL. -/
def Admission.claims (a : Admission) : List (Consumer × Claim) :=
  [(.a, a.claimA), (.b, a.claimB), (.fill, a.claimFill)]

/-! ### Ages (R107) -/

/-- An own age: a difference of tick counts modulo 2^32, saturating at 255 (R107). -/
def tickAge (tick start : Count) : Nat := min 255 (tick - start).toNat

/-- The wait age of a claim (R107). -/
def Admission.waitAge (a : Admission) (c : Claim) : Nat := tickAge a.tick c.waitStart

/-- The age of a claim's last commit, 255 when it holds nothing (R107). -/
def Admission.commitAge (a : Admission) (c : Claim) : Nat :=
  match c.commitTick with
  | some t => if c.committed = .zero then 255 else tickAge a.tick t
  | none => 255

/-- The newest-commit age (R107): the least age of a commit still held, 255 when none is. -/
def Admission.newestAge (a : Admission) : Nat :=
  min (a.commitAge a.claimA) (min (a.commitAge a.claimB) (a.commitAge a.claimFill))

/-! ### Intents (R109, R110) -/

/-- The claim in INTENT, if any (R109 keeps it single). -/
def Admission.intentClaim (a : Admission) : Option Consumer :=
  (a.claims.find? fun p => decide (p.2.state = .intent)).map Prod.fst

/-- A need above the effective capacity of a quantity on its own (R109). -/
def Admission.oversize (a : Admission) (c : Claim) : Bool :=
  decide (a.effHeat < c.need.heat) || decide (a.effFlow < c.need.flow) ||
  decide (a.effDrain < c.need.drain)

/-- A claim that may be chosen for an intent (R109). -/
def Admission.eligible (a : Admission) (c : Claim) : Bool :=
  decide (c.state = .waiting) && !a.oversize c

/-- The older of the best so far and the next claim; the earlier one stays on equal ages (R109). -/
def Admission.older (a : Admission) (best : Option (Consumer × Claim)) (next : Consumer × Claim) :
    Option (Consumer × Claim) :=
  if a.eligible next.2 then
    match best with
    | none => some next
    | some b => if a.waitAge b.2 < a.waitAge next.2 then some next else some b
  else best

/-- The claim chosen to form an intent: the eligible one of greatest wait age, A before B before FILL
(R109). -/
def Admission.chosen (a : Admission) : Option Consumer :=
  (a.claims.foldl a.older none).map Prod.fst

/-- Intent formation at an own tick (R109). -/
def formIntent (s : State) : State :=
  if s.bay = .live ∧ s.adm.intentClaim = none then
    match s.adm.chosen with
    | some k =>
      let s1 := s.setClaim k { s.claim k with state := .intent }
      { s1 with
        adm := { s1.adm with intentCount := s1.adm.intentCount + 1, announcedAge := none } }
    | none => s
  else s

/-- The number and age of the intent an announcement assembled now carries (R110, R123). -/
def State.intentTag (s : State) : Option IntentTag :=
  s.adm.intentClaim.map fun k => ⟨s.adm.intentCount, s.adm.waitAge (s.claim k)⟩

/-! ### The admission test (R113 to R115) -/

/-- The own committed draw of a quantity, over the three claims. -/
def Admission.ownCommitted (a : Admission) (q : Quantity) : Nat :=
  a.claimA.committed.amount q + a.claimB.committed.amount q + a.claimFill.committed.amount q

/-- Whether a peer's last announcement carried an intent (R113). -/
def Peer.hasIntent (p : Peer) : Bool :=
  decide (0 < p.intentHeat) || decide (0 < p.intentFlow) || decide (0 < p.intentDrain) ||
  decide (0 < p.intentLine)

/-- Whether a peer's intent ranks ahead of the own one (R113). -/
def State.ranksAhead (s : State) (p : Peer) : Bool :=
  let own := s.adm.announcedAge.getD 0
  p.hasIntent &&
  (decide (own < p.intentAge) ||
    (decide (p.intentAge = own) && decide (p.address.toNat < (s.ownAddr.getD 0).toNat)))

/-- The committed draws of the peers (R114 term 1, R120). -/
def peersCommitted (ps : List Peer) (q : Quantity) : Nat := (ps.map fun p => p.committedIn q).sum

/-- The draws of the peer intents that rank ahead (R114 term 2). -/
def State.rankedIntents (s : State) (q : Quantity) : Nat :=
  ((s.peers.filter s.ranksAhead).map fun p => p.intentIn q).sum

/-- The sum of R114 for a claim in INTENT. -/
def State.testSum (s : State) (k : Consumer) (q : Quantity) : Nat :=
  peersCommitted s.peers q + s.rankedIntents q + s.adm.ownCommitted q + (s.claim k).intent.amount q

/-- Whether a peer announces a fill line in its held set. -/
def Peer.holds (p : Peer) (line : Nat) : Bool := pinLevel p.heldLines line

/-- Whether an own claim holds a fill line. -/
def Admission.holdsLine (a : Admission) (line : Nat) : Bool :=
  decide (a.claimA.committed.line = line) || decide (a.claimB.committed.line = line) ||
  decide (a.claimFill.committed.line = line)

/-- Whether the fill line of an intent vector fits; 0 is no line (R115). -/
def State.lineFits (s : State) (line : Nat) : Bool :=
  decide (line = 0) ||
  (!(s.peers.any fun p => p.holds line) &&
    !(s.peers.any fun p => s.ranksAhead p && decide (p.intentLine = line)) &&
    !s.adm.holdsLine line)

/-- Whether the claim in INTENT passes its test (R114 to R116). -/
def State.testPasses (s : State) (k : Consumer) : Bool :=
  decide (s.testSum k .heat ≤ s.adm.effHeat) && decide (s.testSum k .flow ≤ s.adm.effFlow) &&
  decide (s.testSum k .drain ≤ s.adm.effDrain) && s.lineFits (s.claim k).intent.line

/-- The commit of a claim that passed its test, before its consumer is told (R116). -/
def commitClaim (k : Consumer) (s : State) : State :=
  dropIntent (s.setClaim k ((s.claim k).commit s.adm.tick))

/-- The return of a claim that failed its test to WAITING (R117). -/
def failClaim (k : Consumer) (s : State) : State :=
  dropIntent (s.setClaim k { s.claim k with state := .waiting })

/-- The zeroing of the claims at the entry into SAFE (R118). -/
def zeroClaims (s : State) : State :=
  { s with
    adm :=
      { s.adm.withoutIntent with
        claimA := s.adm.claimA.zeroed s.adm.tick
        claimB := s.adm.claimB.zeroed s.adm.tick
        claimFill := s.adm.claimFill.zeroed s.adm.tick } }

/-! ### Shedding (R119 to R121) -/

/-- Whether a quantity is overloaded (R120). -/
def State.overloaded (s : State) (q : Quantity) : Bool :=
  decide (s.adm.eff q < peersCommitted s.peers q + s.adm.ownCommitted q)

/-- Whether a peer is no younger a holder than this bay: not a holder, of a greater newest-commit age,
or of an equal one and a lower address (R120). -/
def State.outranksPeer (s : State) (q : Quantity) (p : Peer) : Bool :=
  decide (p.committedIn q = 0) || decide (s.adm.newestAge < p.newestAge) ||
  (decide (s.adm.newestAge = p.newestAge) &&
    decide (p.address.toNat < (s.ownAddr.getD 0).toNat))

/-- Whether this bay is the one to shed in a quantity (R120). -/
def State.mustShed (s : State) (q : Quantity) : Bool :=
  s.overloaded q && decide (0 < s.adm.ownCommitted q) && s.peers.all (s.outranksPeer q)

/-- The ticks since a claim's last commit, not saturated, for the choice of R121. -/
def Admission.sinceCommit (a : Admission) (c : Claim) : Nat :=
  match c.commitTick with
  | some t => (a.tick - t).toNat
  | none => maxCount + 1

/-- The wash claim to shed in a quantity: a holder of it with the latest commit tick (R121), A on equal
ticks (notes/assumptions/20.md). The FILL claim is never shed (R87). -/
def Admission.shedChoice (a : Admission) (q : Quantity) : Option Side :=
  let holdsA := decide (0 < a.claimA.committed.amount q)
  let holdsB := decide (0 < a.claimB.committed.amount q)
  if holdsA && holdsB then
    if a.sinceCommit a.claimB < a.sinceCommit a.claimA then some .b else some .a
  else if holdsA then some .a
  else if holdsB then some .b
  else none

/-- The claim and the resource a shedding evaluation sheds, HEAT before FLOW (R119). -/
def State.shedDecision (s : State) : Option (Side × Quantity) :=
  let heat := if s.mustShed .heat then s.adm.shedChoice .heat else none
  match heat with
  | some c => some (c, .heat)
  | none =>
    if s.mustShed .flow then (s.adm.shedChoice .flow).map fun c => (c, .flow) else none

/-! ### Contents of the own frames (R123, R124, R129) -/

/-- The arbitration byte: class in the high nibble, own station address in the low (R148). -/
def State.arbitrationByte (s : State) (frameClass : Nat) : List Byte :=
  put1 (16 * frameClass + (s.ownAddr.getD 0).toNat)

/-- The held set of the own claims (R123). -/
def Admission.heldByte (a : Admission) : Nat :=
  flagByte [(a.holdsLine 1, 1), (a.holdsLine 2, 2), (a.holdsLine 3, 4), (a.holdsLine 4, 8)]

/-- The intent vector announced: zero when no claim is in INTENT (R123). -/
def State.announcedIntent (s : State) : Draws :=
  match s.adm.intentClaim with
  | some k => (s.claim k).intent
  | none => .zero

/-- The intent age announced: 0 when no claim is in INTENT (R123). -/
def State.announcedIntentAge (s : State) : Nat :=
  match s.adm.intentClaim with
  | some k => s.adm.waitAge (s.claim k)
  | none => 0

/-- The content of an own ANNOUNCE (R123, chapter 12.3). -/
def State.announceContent (s : State) : List Byte :=
  s.arbitrationByte 1 ++ put1 (s.announcedFlags false) ++ put1 s.cfg.capSet ++
  put2 (s.adm.ownCommitted .heat) ++ put2 (s.adm.ownCommitted .flow) ++
  put2 (s.adm.ownCommitted .drain) ++ put1 s.adm.heldByte ++
  put2 s.announcedIntent.heat ++ put2 s.announcedIntent.flow ++ put2 s.announcedIntent.drain ++
  put1 s.announcedIntent.line ++ put1 s.announcedIntentAge ++ put1 s.adm.newestAge

/-- The content of an own LEAVE (R124). -/
def State.leaveContent (s : State) : List Byte :=
  s.arbitrationByte 0 ++ put1 (s.announcedFlags true) ++ put1 s.cfg.capSet ++
  put2 0 ++ put2 0 ++ put2 0 ++ put1 0 ++ put2 0 ++ put2 0 ++ put2 0 ++ put1 0 ++ put1 0 ++ put1 255

/-- The content of an own ROLL_CALL (R129). -/
def State.rollCallContent (s : State) : List Byte := s.arbitrationByte 2 ++ put1 s.cfg.capSet

/-- The first-slot offset (R128). -/
def State.slotOffset (s : State) : Nat := (s.ownAddr.getD 0).toNat * s.cfg.period / 16

end Sys2Proof.Machine
end

