-- ==== Sys2Proof/Machine/Certificates.lean ====
section
/-!
DEFINITION. The certificate queue (chapter 9): the bytes of a record (R166, chapter 12.5), the append
with its accounts (R167), the reservation (R164), and the two commands on the head (R168, R169).
-/

namespace Sys2Proof.Machine

/-- The record bytes held (R163). -/
def CertQueue.recordBytes (q : CertQueue) : Nat := (q.records.map List.length).sum

/-- The free bytes (R163). -/
def CertQueue.freeBytes (q : CertQueue) : Nat := 4096 - q.recordBytes - q.reservedBytes

/-- The 16 bytes of a step entry (chapter 12.5). -/
def StepEntry.bytes : StepEntry → List Byte
  | .wash e =>
    put1 e.kind.code ++ put1 e.number ++ put1 e.outcome.code ++ put2 e.elapsed ++ put2 e.good ++
    put2 e.dose ++ put1 e.tMin ++ put1 e.tMax ++ put1 e.corrected ++ put1 e.failed ++
    put2 e.revolutions ++ put1 e.pauses
  | .inspect e =>
    put1 5 ++ put1 e.number ++ put1 e.verdict.code ++ put2 e.elapsed ++ put1 e.samples ++
    put2 e.meanExcess ++ put2 e.meanTurbidity ++ put1 e.tMin ++ put1 e.tMax ++ put1 e.corrected ++
    put1 e.failed ++ put2 e.compRevolutions

/-- The 12 bytes of a fill entry (chapter 12.5), its volumes saturated (R202). -/
def FillEntry.bytes (e : FillEntry) : List Byte :=
  put1 e.line ++ put1 e.outcome.code ++ put2 e.preset ++ putSat2 e.finalVolume ++
  putSat2 e.volumeAtClose ++ put1 e.trailUsed ++ put1 e.interruptions ++ put2 e.duration

/-- The length of a record with `e` step entries and `f` fill entries (R166). -/
def recordLength (e f : Nat) : Nat := 12 + 16 * e + 12 * f + 4

/-- The number of fill entries of a compartment, 0 or 1. -/
def Comp.fillCount (c : Comp) : Nat := if c.fillEntry.isSome then 1 else 0

/-- The record of a compartment (R165, R166, chapter 12.5). -/
def certBytes (tag : Count) (number : Nat) (c : Comp) : List Byte :=
  put4 tag.toNat ++ put1 number ++ put1 c.loaded.drop ++ put1 c.loaded.prior ++
  put1 c.loaded.next ++ put1 c.loaded.stored.certCode ++ put1 (circuitCode c.washedBy) ++
  put2 (recordLength c.entries.length c.fillCount) ++
  c.entries.flatMap StepEntry.bytes ++
  (match c.fillEntry with
    | some e => e.bytes
    | none => []) ++
  put1 c.state.code ++ put1 c.reason.code ++ put1 c.entries.length ++ put1 c.fillCount

/-- The queue with a record appended and its share of the reservation settled (R167). -/
def CertQueue.append (q : CertQueue) (record : List Byte) : CertQueue where
  records := q.records ++ [record]
  reservedRecords := q.reservedRecords - 1
  reservedBytes := q.reservedBytes - 252

/-- Appends the record of compartment `i` and raises CERT_READY (R167). -/
def appendCert (i : Nat) (record : List Byte) (s : State) : State :=
  let q := s.certs.append record
  raise .certReady i record.length q.records.length { s with certs := q }

/-- The byte excess a reservation for `n` compartments meets (R164). -/
def CertQueue.byteExcess (q : CertQueue) (n : Nat) : Nat :=
  q.recordBytes + q.reservedBytes + 252 * n - 4096

/-- The record excess a reservation for `n` compartments meets: records held, those reserved and `n` above
24 (R164). -/
def CertQueue.recordExcess (q : CertQueue) (n : Nat) : Nat :=
  q.records.length + q.reservedRecords + n - 24

/-- Whether a reservation for `n` compartments fits both accounts (R164). -/
def CertQueue.fits (q : CertQueue) (n : Nat) : Bool :=
  decide (q.records.length + q.reservedRecords + n ≤ 24) &&
  decide (q.recordBytes + q.reservedBytes + 252 * n ≤ 4096)

/-- The reservation for `n` compartments made (R164). -/
def CertQueue.reserve (q : CertQueue) (n : Nat) : CertQueue :=
  { q with reservedRecords := n, reservedBytes := 252 * n }

/-- The answer to a reservation request for `n` compartments: the queue with it made, or the byte excess and
the record excess (R164). -/
def CertQueue.request (q : CertQueue) (n : Nat) : Except (Nat × Nat) CertQueue :=
  if q.fits n then .ok (q.reserve n) else .error (q.byteExcess n, q.recordExcess n)

/-- The actual length READ_CERT returns from a head record of length `h` (R168). -/
def certReadLength (h offset requested : Nat) : Nat :=
  if h ≤ offset then 0 else min (min requested 64) (h - offset)

end Sys2Proof.Machine
end

