-- ==== Sys2Proof/Machine/JobStore.lean ====
section
/-!
DEFINITION. The job store (chapter 1): promotion (R9, R10), the ending of a compartment (R20) and of a
job (R21), and the ending of every compartment at a soft reset (R27).
-/

namespace Sys2Proof.Machine

/-- A compartment of the active job as promotion makes it (R10). -/
def Comp.promoted (c : LoadedComp) : Comp where
  loaded := c
  state := .queued
  owner := none
  reason := .none
  retriesUsed := 0
  revolutions := 0
  entries := []
  fillEntry := none
  washedBy := none

/-- The staged job as the active job, in AWAIT_POSITION (R10). -/
def StagedJob.promoted (j : StagedJob) : ActiveJob :=
  ⟨j.tag, false, j.comps.map Comp.promoted⟩

/-- A promotion attempt (R9, R10, R164): nothing unless the ACTIVE slot is EMPTY and a job is staged. Of the
two figures the queue returns, CERT_WAIT carries the byte excess. -/
def tryPromote (s : State) : State :=
  match s.jobs.active, s.jobs.staged with
  | none, some j =>
    let n := j.comps.length
    match s.certs.request n with
    | .ok reserved =>
      raise .jobPromoted n j.tag.toNat (j.tag.toNat / 256)
        { s with
          certs := reserved
          jobs := { s.jobs with staged := none, active := some j.promoted } }
    | .error (bytes, _) =>
      if j.waitMark then s
      else
        raise .certWait n bytes (bytes / 256)
          { s with jobs := { s.jobs with staged := some { j with waitMark := true } } }
  | _, _ => s

/-- Whether a compartment lets its job pass: DONE or SKIPPED, with no fill outcome but FILLED (R21). -/
def Comp.passes (c : Comp) : Bool :=
  (decide (c.state = .done) || decide (c.state = .skipped)) &&
  (match c.fillEntry with
    | some e => decide (e.outcome = .filled)
    | none => true)

/-- The job's result (R21). -/
def jobResult (comps : List Comp) : JobResult := if comps.all Comp.passes then .pass else .fail

/-- The number of compartments DONE (R21). -/
def doneCount (comps : List Comp) : Nat := comps.countP fun c => decide (c.state = .done)

/-- The job end test with the job end (R21). -/
def jobEndTest (s : State) : State :=
  match s.jobs.active with
  | some j =>
    if j.comps.all fun c => c.state.terminal then
      let result := jobResult j.comps
      let s1 := { s with jobs := { s.jobs with previous := s.jobs.last, last := result } }
      let s2 := raise .jobEnded result.code (doneCount j.comps) 0 s1
      tryPromote
        { s2 with
          jobs := { s2.jobs with active := none }
          fill := { s2.fill with order := [] } }
    else s
  | none => s

/-- Hands the record of compartment `i` to the certificate queue (R20 step 1, R165). -/
def handCert (i : Nat) (s : State) : State :=
  match s.jobs.active, s.comp? i with
  | some j, some c => appendCert i (certBytes j.tag i c) s
  | _, _ => s

/-- A compartment enters a terminal state: no owner, its reason set (R13). -/
def Comp.ended (st : CompState) (reason : ResultCode) (c : Comp) : Comp :=
  { c with state := st, owner := none, reason := reason }

/-- A compartment of the active job becomes terminal (R20). -/
def endComp (i : Nat) (st : CompState) (reason : ResultCode) (s : State) : State :=
  let s1 := handCert i (s.modComp i (Comp.ended st reason))
  jobEndTest (raise .compEnded i st.code reason.code s1)

/-- Sets a compartment's state and owner. -/
def setCompState (i : Nat) (st : CompState) (owner : Option Consumer) (s : State) : State :=
  s.modComp i fun c => { c with state := st, owner := owner }

end Sys2Proof.Machine
end

