-- ==== Sys2Proof/Machine/Fill.lean ====
section
/-!
DEFINITION. The fill controller (chapter 5): taking a compartment (R16 to R18), the skid handshake
(R88), flow and close (R89 to R94), the trail (R95), the fill entry (R96), failures (R90), interruption
and resumption (R97, R98).
-/

namespace Sys2Proof.Machine

/-! ### Values of the controller -/

/-- The delivered volume in litres (R91). -/
def State.fillVolume (s : State) : Nat := s.fill.pulses / s.cfg.fillMeter

/-- The stored trail of a line (R95). -/
def Trails.get (t : Trails) : Nat → Nat
  | 1 => t.t1
  | 2 => t.t2
  | 3 => t.t3
  | 4 => t.t4
  | _ => 0

/-- The trails with the one of a line replaced (R95, R100). -/
def Trails.set (t : Trails) (line v : Nat) : Trails :=
  match line with
  | 1 => { t with t1 := v }
  | 2 => { t with t2 := v }
  | 3 => { t with t3 := v }
  | 4 => { t with t4 := v }
  | _ => t

/-- The outcome decided from a volume against preset and tolerance (R94). -/
def volumeOutcome (preset tolerance volume : Nat) : ResultCode :=
  if volume + tolerance < preset then .short
  else if preset + tolerance < volume then .over
  else .filled

/-- The trail learned from the trail used and the measured trail (R95). -/
def learnedTrail (used final atClose : Nat) : Nat := min 200 ((3 * used + (final - atClose)) / 4)

/-- The close point in pulses (R92). -/
def closePointOf (preset trail factor : Nat) : Nat := (preset - trail) * factor

/-- The fill entry closed with an outcome at the present volume (R96). -/
def State.fillEntryOf (s : State) (outcome : ResultCode) : FillEntry where
  line := s.fill.line
  outcome := outcome
  preset := s.fill.preset
  finalVolume := s.fillVolume
  volumeAtClose := s.fill.volumeAtClose
  trailUsed := if s.fill.flowed then s.fill.trailUsed else s.fill.trails.get s.fill.line
  interruptions := s.fill.interruptions
  duration := min 65535 (s.fill.duration / 1000)

/-- Closes the fill entry of the served compartment when the attempt was started (R96). -/
def closeFillEntry (outcome : ResultCode) (s : State) : State :=
  if s.fill.started then
    s.modComp s.fill.comp fun c => { c with fillEntry := some (s.fillEntryOf outcome) }
  else s

/-- The outcome decided from the delivered volume (R94, R96). -/
def State.volumeResult (s : State) : ResultCode :=
  volumeOutcome s.fill.preset s.cfg.fillTolerance s.fillVolume

/-- The outcome of a fill cut before its run-out: SHORT from AWAIT_SKID with nothing delivered, whatever the
preset and the tolerance, else on volume (R22, R96, R99; nothing delivered: notes/assumptions/38.md). -/
def State.cutResult (s : State) : ResultCode :=
  if s.fill.state = .awaitSkid ∧ s.fillVolume = 0 then .short else s.volumeResult

/-! ### States -/

/-- The controller in IDLE, its order, trails and selector kept (R14, R85). -/
def FillController.idle (f : FillController) : FillController :=
  { FillController.reset f.trails f.dropSel with order := f.order }

/-- Returns the fill controller to IDLE. -/
def fillIdle (s : State) : State := { s with fill := s.fill.idle }

/-- Enters CLOSING with a close kind (R92, R93, R94, R99). -/
def enterClosing (k : CloseKind) (s : State) : State :=
  { s with
    fill :=
      { s.fill with
        state := .closing
        closeKind := k
        volumeAtClose := s.fillVolume
        skid := none
        noFlow := none
        runOut := startTimer s.fill.runOut (s.cfg.fillRunOut * 1000) } }

/-- Enters FLOWING (R89). -/
def enterFlowing (s : State) : State :=
  let trail := s.fill.trails.get s.fill.line
  { s with
    fill :=
      { s.fill with
        state := .flowing
        flowed := true
        trailUsed := trail
        closePoint := closePointOf s.fill.preset trail s.cfg.fillMeter
        skid := none
        noFlow := some (s.cfg.noFlowTime * 1000) } }

/-- The skid's answer in AWAIT_SKID (R88). -/
def skidAnswer (s : State) : State :=
  if s.high s.fill.dropSel then enterClosing .high s else enterFlowing s

/-- Enters AWAIT_SKID (R88). -/
def enterAwaitSkid (s : State) : State :=
  let s1 :=
    { s with
      fill :=
        { s.fill with
          state := .awaitSkid
          started := true
          skid := startTimer s.fill.skid (s.cfg.skidTimeout * 1000) } }
  if s1.deliv s1.fill.line then skidAnswer s1 else s1

/-- Enters ADMIT with the line as need; a claim found SATISFIED goes on at once (R87). -/
def enterFillAdmission (s : State) : State :=
  let s1 :=
    needChange .fill ⟨0, 0, 0, s.fill.line⟩
      { s with fill := { s.fill with state := .admitting, dropWait := none } }
  if s1.adm.claimFill.state = .satisfied then enterAwaitSkid s1 else s1

/-- The served compartment leaves WAIT_DROP under the fill controller (R18). -/
def leaveWaitDropFill (s : State) : State :=
  enterFillAdmission (setCompState s.fill.comp .filling (some .fill) s)

/-- The length of the drop-wait timer, none for a limit of 0 (R17). -/
def State.dropWaitLength (s : State) : Option Nat :=
  if s.cfg.dropWaitLimit = 0 then none else some (s.cfg.dropWaitLimit * 1000)

/-- The controller as it takes a compartment (R16, R85). -/
def FillController.taking (f : FillController) (i : Nat) (c : LoadedComp) (rest : List Nat) :
    FillController :=
  { FillController.reset f.trails c.drop with
    state := .waitDrop
    comp := i
    line := c.fillLine
    preset := c.fillVolume
    order := rest }

/-- Takes compartment `i` into WAIT_DROP (R16, R17). -/
def fillTakeComp (i : Nat) (c : LoadedComp) (rest : List Nat) (s : State) : State :=
  let s1 :=
    setCompState i .waitDrop (some .fill) { s with fill := s.fill.taking i c rest }
  if s1.conn c.drop then leaveWaitDropFill s1
  else { s1 with fill := { s1.fill with dropWait := s1.dropWaitLength } }

/-- An IDLE controller takes the oldest compartment of the order while the job is RUNNING (R16). -/
def fillTake (s : State) : State :=
  if s.fill.state = .idle ∧ s.jobRunning = true then
    match s.fill.order with
    | i :: rest =>
      match s.comp? i with
      | some c => fillTakeComp i c.loaded rest s
      | none => s
    | [] => s
  else s

/-- `fillTake` unless taking is held off by an ABORT_JOB (R23). -/
def fillTakeIf (take : Bool) (s : State) : State := if take then fillTake s else s

/-- A compartment enters FILL_WAIT and joins the end of the order (R16). -/
def joinFillWait (i : Nat) (s : State) : State :=
  let s1 := setCompState i .fillWait none s
  { s1 with fill := { s1.fill with order := s1.fill.order ++ [i] } }

/-! ### Ends of a fill -/

/-- Releases the line, ends the compartment, returns to IDLE and takes the next one. -/
def finishFill (st : CompState) (reason : ResultCode) (take : Bool) (s : State) : State :=
  let i := s.fill.comp
  fillTakeIf take (fillIdle (endComp i st reason (needChange .fill .zero s)))

/-- A fill fails NO_SKID, NO_FLOW or SKID_STOPPED (R90). -/
def failFill (reason : ResultCode) (s : State) : State :=
  let s1 :=
    { s with fill := { s.fill with volumeAtClose := s.fillVolume, skid := none, noFlow := none } }
  finishFill .failed reason true (closeFillEntry reason s1)

/-- The served compartment is ended at once, its fill entry taking the outcome of a cut (R22, R24, R96,
R99). -/
def endFillAtOnce (st : CompState) (reason : ResultCode) (take : Bool) (s : State) : State :=
  finishFill st reason take (closeFillEntry s.cutResult s)

/-- The outcome at the end of the fill run-out (R94). -/
def State.runOutResult (s : State) : ResultCode :=
  if s.fill.closeKind = .high then .highLevel else s.volumeResult

/-- Learns the trail after a NORMAL close (R95). -/
def learnTrail (s : State) : State :=
  if s.fill.closeKind = .normal then
    { s with
      fill :=
        { s.fill with
          trails :=
            s.fill.trails.set s.fill.line
              (learnedTrail s.fill.trailUsed s.fillVolume s.fill.volumeAtClose) } }
  else s

/-- The terminal state and reason a close kind leads to (R94). -/
def CloseKind.ending : CloseKind → CompState × ResultCode
  | .none => (.done, .none)
  | .normal => (.done, .none)
  | .high => (.done, .none)
  | .abort => (.aborted, .host)
  | .dropLost => (.failed, .dropLost)

/-- The end of the fill run-out (R94). -/
def endFillRunOut (s : State) : State :=
  let s1 := closeFillEntry s.runOutResult (learnTrail s)
  finishFill s.fill.closeKind.ending.1 s.fill.closeKind.ending.2 true s1

/-! ### SAFE and RESUME (R97, R98) -/

/-- INTERRUPTED: timers stopped, the line released (R97). -/
def interruptFill (s : State) : State :=
  needChange .fill .zero
    { s with
      fill := { s.fill with state := .interrupted, skid := none, noFlow := none, runOut := none } }

/-- The fill controller at the entry into SAFE (R97). -/
def fillEnterSafe (s : State) : State :=
  match s.fill.state with
  | .idle => s
  | .waitDrop => s
  | .admitting => s
  | .awaitSkid => interruptFill s
  | .flowing => interruptFill s
  | .closing =>
    match s.fill.closeKind with
    | .abort => s
    | .dropLost => s
    | .none => interruptFill s
    | .normal => interruptFill s
    | .high => interruptFill s
  | .interrupted => s

/-- The fill controller at RESUME (R98). -/
def fillResume (s : State) : State :=
  if s.fill.state = .interrupted then
    let s1 := { s with fill := { s.fill with interruptions := satInc s.fill.interruptions 255 } }
    if s1.fill.closeKind = .high then
      finishFill .done .none true (closeFillEntry .highLevel s1)
    else if s1.fill.preset ≤ s1.fillVolume + s1.cfg.fillTolerance then
      finishFill .done .none true (closeFillEntry s1.volumeResult s1)
    else enterFillAdmission { s1 with fill := { s1.fill with closeKind := .none } }
  else s

end Sys2Proof.Machine
end

