-- ==== Sys2Proof/Machine/Circuits.lean ====
section
/-!
DEFINITION. The wash circuits (chapters 2 to 4): beginning a step (R36), RUN (R36, R44, R45), PAUSED
(R47, R48), closing entries (R42, R43, R50, R78), RUN_OUT (R49) and taking a compartment (R15, R17,
R18).
-/

namespace Sys2Proof.Machine

/-! ### The recipe of the compartment in hand -/

/-- The recipe a compartment of the active job is washed by (R5). -/
def State.recipeOf (s : State) (i : Nat) : Option Recipe :=
  match s.comp? i with
  | some c =>
    match c.loaded.stored with
    | .recipe r => s.store.recipe? r
    | .noRecipe => none
    | .absent => none
  | none => none

/-- Step `n` of the recipe of a circuit's compartment, numbered from 1 (R28). -/
def State.stepAt (s : State) (c : Side) (n : Nat) : Option Step :=
  match s.recipeOf (s.circ c).comp, n with
  | some r, k + 1 => r.steps[k]?
  | _, _ => none

/-- The current step of a circuit. -/
def State.stepOf (s : State) (c : Side) : Option Step := s.stepAt c (s.circ c).step

/-- The draws of a step (R29). -/
def Step.draws (st : Step) : Draws := ⟨st.heat, st.flow, st.drain, 0⟩

/-- The number of the INSPECT step of the circuit's recipe: its last (R30). -/
def State.inspectNumber (s : State) (c : Side) : Nat :=
  match s.recipeOf (s.circ c).comp with
  | some r => r.steps.length
  | none => 0

/-- The whole revolutions of a pulse count (R46). -/
def revolutionsOf (pulses perRev : Nat) : Nat := min 65535 (pulses / perRev)

/-- The dose of a step record (R64). -/
def StepRecord.dose (r : StepRecord) : Nat := r.dose256 / 256

/-- The mean of a sum over `n` samples, 0 when there is none (R74). -/
def meanOf (sum n : Nat) : Nat := if n = 0 then 0 else sum / n

/-! ### RUN and PAUSED -/

/-- What leaving RUN does to the circuit: its step timers stop, the flow reads 0 and the spinner counts
as stopped (R36, R38, R44, R45, R41). The held q is cleared here, so a later entry to RUN starts from 0
(DESIGN CHOICE, notes/assumptions/31.md). -/
def Circuit.leaveRun (x : Circuit) : Circuit :=
  { x with
    stepSecond := none
    stallMonitor := none
    stallLimit := none
    sump := none
    spinning := false
    flowPulses := 0
    heldQ := 0 }

/-- The counts of a step as they return from a pause: restarted after a pause beyond the hold limit
(R48, R82). -/
def Circuit.resumeCounts (x : Circuit) (holdLimit : Nat) : Circuit :=
  match x.pause with
  | some t =>
    if holdLimit * 1000 < t then
      { x with
        rcd := { x.rcd with elapsed := 0, good := 0, dose256 := 0 }
        samples := .cleared }
    else x
  | none => x

/-- A circuit in RUN of a step (R36, R44, R45, R58). The held q reads 0 until the first step second after
this entry, where R38 names no value (DESIGN CHOICE, notes/assumptions/31.md). -/
def Circuit.running (x : Circuit) (st : Step) (cfg : Configuration) (sumpEmpty : Bool) : Circuit :=
  { x with
    state := .running
    entered := true
    pause := none
    flowPulses := 0
    heldQ := 0
    spinning := false
    probeFault := 0
    stepSecond := some 1000
    stallMonitor := some cfg.stallTime
    stallLimit := if st.kind.washes then some (cfg.stallLimit * 1000) else none
    sump := if st.kind = .drain ∧ sumpEmpty = true then some 5000 else none }

/-- Enters RUN, from ADMIT or from PAUSED (R36, R48). -/
def enterRun (c : Side) (s : State) : State :=
  match s.stepOf c with
  | some st =>
    s.modCirc c fun x => (x.resumeCounts st.holdLimit).running st s.cfg s.pins.sump
  | none => s

/-- A circuit told of a grant: a step in ADMIT or PAUSED enters RUN (R35, R106). -/
def grantCirc (c : Side) (s : State) : State :=
  match (s.circ c).state with
  | .admitting => enterRun c s
  | .paused => enterRun c s
  | .idle => s
  | .waitDrop => s
  | .running => s
  | .runOut => s

/-- A circuit entering PAUSED (R47). -/
def Circuit.paused (x : Circuit) : Circuit :=
  { x.leaveRun with
    state := .paused
    rcd := { x.rcd with pauses := satInc x.rcd.pauses 255 }
    pause := some 0 }

/-- Enters PAUSED (R47). -/
def enterPaused (c : Side) (s : State) : State := s.modCirc c Circuit.paused

/-- The circuit at the beginning of step `n`, in ADMIT with its record cleared (R36, R69, R73). -/
def Circuit.beginning (x : Circuit) (n : Nat) (retrying : Bool) : Circuit :=
  { x.leaveRun with
    state := .admitting
    step := n
    rcd := .cleared
    samples := .cleared
    entered := false
    retrying := retrying
    lastTemp := 255
    lastStatus := .none
    lastIncrement := 0
    pause := none
    dropWait := none }

/-- The draws of the circuit's current step, zero when it has none. -/
def State.stepDraws (s : State) (c : Side) : Draws :=
  match s.stepOf c with
  | some st => st.draws
  | none => .zero

/-- Begins step `n` (R36); in SAFE it begins PAUSED (R18, R47). -/
def beginStep (c : Side) (n : Nat) (retrying : Bool) (s : State) : State :=
  let s1 := s.modCirc c fun x => x.beginning n retrying
  let s2 := needChange (sideConsumer c) (s1.stepDraws c) s1
  if s2.inSafe then enterPaused c s2
  else if (s2.claim (sideConsumer c)).granted then enterRun c s2
  else s2

/-! ### Entries -/

/-- The entry of a RINSE, WASH, SANITIZE or DRAIN step (R42, R68). -/
def washEntryOf (st : Step) (x : Circuit) (outcome : ResultCode) (perRev : Nat) : WashEntry where
  kind := st.kind
  number := x.step
  outcome := outcome
  elapsed := x.rcd.elapsed
  good := x.rcd.good
  dose := if st.kind.dosed then x.rcd.dose else 0
  tMin := x.rcd.tMin
  tMax := x.rcd.tMax
  corrected := x.rcd.corrected
  failed := x.rcd.failed
  revolutions := revolutionsOf x.rcd.pulses perRev
  pauses := x.rcd.pauses

/-- The entry of an INSPECT run (R78). -/
def inspectEntryOf (x : Circuit) (verdict : ResultCode) (compRevolutions : Nat) : InspectEntry where
  number := x.step
  verdict := verdict
  elapsed := x.rcd.elapsed
  samples := x.samples.n
  meanExcess := meanOf x.samples.excess x.samples.n
  meanTurbidity := meanOf x.samples.turbidity x.samples.n
  tMin := x.rcd.tMin
  tMax := x.rcd.tMax
  corrected := x.rcd.corrected
  failed := x.rcd.failed
  compRevolutions := compRevolutions

/-- The revolutions a compartment of the active job has counted (R13). -/
def State.compRevolutions (s : State) (i : Nat) : Nat :=
  match s.comp? i with
  | some c => c.revolutions
  | none => 0

/-- The entry the circuit closes for its current step (R42, R78). -/
def State.entryOf (s : State) (c : Side) (st : Step) (outcome : ResultCode) : StepEntry :=
  match st.kind with
  | .inspect => .inspect (inspectEntryOf (s.circ c) outcome (s.compRevolutions (s.circ c).comp))
  | .rinse => .wash (washEntryOf st (s.circ c) outcome (s.pulsesPerRev c))
  | .wash => .wash (washEntryOf st (s.circ c) outcome (s.pulsesPerRev c))
  | .sanitize => .wash (washEntryOf st (s.circ c) outcome (s.pulsesPerRev c))
  | .drain => .wash (washEntryOf st (s.circ c) outcome (s.pulsesPerRev c))

/-- Adds the step's revolutions to the compartment's, for the kinds that count (R46). -/
def addRevolutions (c : Side) (st : Step) (s : State) : State :=
  if st.kind.washes then
    let revs := revolutionsOf (s.circ c).rcd.pulses (s.pulsesPerRev c)
    s.modComp (s.circ c).comp fun k => { k with revolutions := min 65535 (k.revolutions + revs) }
  else s

/-- Closes the entry of the current step, adds its revolutions and raises STEP_ENDED (R42 steps 1 to 3,
R43, R50, R78). -/
def closeStep (c : Side) (st : Step) (outcome : ResultCode) (s : State) : State :=
  let x := s.circ c
  let s1 := s.modCirc c fun y => { y with entries := y.entries ++ [s.entryOf c st outcome] }
  raise .stepEnded x.comp x.step outcome.code (addRevolutions c st s1)

/-! ### Taking a compartment (R15, R17, R18) -/

/-- The circuit's compartment leaves WAIT_DROP and its first step begins (R18). -/
def leaveWaitDropCirc (c : Side) (s : State) : State :=
  beginStep c 1 false
    (setCompState (s.circ c).comp .washing (some (sideConsumer c)) s)

/-- The circuit as it takes a compartment (R14, R15, R33). -/
def Circuit.taking (x : Circuit) (i drop : Nat) : Circuit :=
  { x with
    state := .waitDrop
    comp := i
    step := 0
    dropSel := drop
    entries := []
    entered := false
    retrying := false
    carried := none }

/-- The compartment as a wash circuit takes it (R15, R166). -/
def Comp.takenBy (k : Comp) (c : Side) : Comp :=
  { k with state := .waitDrop, owner := some (sideConsumer c), washedBy := some c }

/-- Takes compartment `i` into WAIT_DROP (R15, R17). -/
def circTakeComp (c : Side) (i drop : Nat) (s : State) : State :=
  let s1 := (s.modCirc c fun x => x.taking i drop).modComp i fun k => k.takenBy c
  if s1.conn drop then leaveWaitDropCirc c s1
  else s1.modCirc c fun x => { x with dropWait := s1.dropWaitLength }

/-- An IDLE circuit takes the lowest-numbered QUEUED compartment of its drops while the job is RUNNING
(R15). -/
def circTake (c : Side) (s : State) : State :=
  if (s.circ c).state = .idle ∧ s.jobRunning = true then
    let wanted := fun k : Comp => decide (k.state = .queued) && servesDrop c k.loaded.drop
    match firstComp wanted 1 s.comps with
    | some i =>
      match s.comp? i with
      | some k => circTakeComp c i k.loaded.drop s
      | none => s
    | none => s
  else s

/-- `circTake` unless taking is held off by an ABORT_JOB (R23). -/
def circTakeIf (take : Bool) (c : Side) (s : State) : State := if take then circTake c s else s

/-! ### The end of the circuit's work on a compartment -/

/-- The circuit back in IDLE; what it last measured stays readable (R33, R69). -/
def Circuit.toIdle (x : Circuit) : Circuit :=
  { x.leaveRun with
    state := .idle
    comp := 0
    step := 0
    entries := []
    entered := false
    retrying := false
    carried := none
    dropWait := none
    runOut := none
    pause := none }

/-- Hands the circuit's entry list to its compartment's entry (R33, R165). -/
def handEntries (c : Side) (s : State) : State :=
  let x := s.circ c
  (s.modComp x.comp fun k => { k with entries := x.entries }).modCirc c
    fun y => { y with entries := [] }

/-- Need zero and the entry list handed over: the circuit is done with its compartment (R35, R49). -/
def releaseComp (c : Side) (s : State) : State :=
  handEntries c (needChange (sideConsumer c) .zero s)

/-- The compartment made terminal at once from the circuit, which returns to IDLE (R22, R17). -/
def endCompFromCirc (c : Side) (st : CompState) (reason : ResultCode) (take : Bool) (s : State) :
    State :=
  let i := (s.circ c).comp
  let s1 := endComp i st reason (releaseComp c s)
  circTakeIf take c (s1.modCirc c Circuit.toIdle)

/-- The compartment takes the outcome carried into RUN_OUT (R19). -/
def deliverOutcome (i : Nat) (carried : Option Carried) (s : State) : State :=
  match carried with
  | some .pass =>
    match s.comp? i with
    | some k => if k.loaded.fillLine = 0 then endComp i .done .none s else joinFillWait i s
    | none => s
  | some (.ends st reason) => endComp i st reason s
  | none => s

/-- The end of RUN_OUT (R49, R19). -/
def endRunOut (c : Side) (take : Bool) (s : State) : State :=
  let x := s.circ c
  let s1 := deliverOutcome x.comp x.carried (releaseComp c s)
  circTakeIf take c (fillTakeIf take (s1.modCirc c Circuit.toIdle))

/-- The circuit entering RUN_OUT (R49). -/
def Circuit.runningOut (x : Circuit) (carried : Carried) (length : Nat) : Circuit :=
  { x.leaveRun with
    state := .runOut
    carried := some carried
    pause := none
    runOut := startTimer x.runOut length }

/-- Enters RUN_OUT carrying an outcome; a run-out time of 0 ends it within the event (R49). -/
def enterRunOut (c : Side) (carried : Carried) (take : Bool) (s : State) : State :=
  let s1 := s.modCirc c fun x => x.runningOut carried (s.cfg.runOutTime * 1000)
  let s2 := needChange (sideConsumer c) (s1.claim (sideConsumer c)).drainOnly s1
  let s3 := setCompState (s.circ c).comp .ending (some (sideConsumer c)) s2
  if s.cfg.runOutTime = 0 then endRunOut c take s3 else s3

/-! ### The end of a step -/

/-- The number of the step after the current one: INSPECT after the repeat step of a retry (R42,
R80). -/
def State.nextStep (s : State) (c : Side) : Nat :=
  if (s.circ c).retrying then s.inspectNumber c else (s.circ c).step + 1

/-- A RINSE, WASH, SANITIZE or DRAIN step ends DONE or DRAIN_LIMIT (R42). -/
def finishStep (c : Side) (st : Step) (outcome : ResultCode) (s : State) : State :=
  beginStep c (s.nextStep c) false (closeStep c st outcome s)

/-- A step fails (R43). -/
def failStep (c : Side) (st : Step) (reason : ResultCode) (s : State) : State :=
  enterRunOut c (.ends .failed reason) true (closeStep c st reason s)

/-- Closes the entry of a step that has entered RUN with outcome CUT (R50). -/
def cutStep (c : Side) (s : State) : State :=
  if (s.circ c).entered then
    match s.stepOf c with
    | some st => closeStep c st .cut s
    | none => s
  else s

end Sys2Proof.Machine
end

