-- ==== Sys2Proof/Machine/Seconds.lean ====
section
/-!
DEFINITION. The step seconds (R37, R41, R71) with all that enters them: flow (R38), reconciliation (R55
to R57), gates (R39, R40, R63), weight and flow factor (R61, R62), accumulation (R64), probe fault count
(R58), samples (R72, R73) and verdict (R74 to R81); and the rows of the circuits' inputs and timers.
-/

namespace Sys2Proof.Machine

/-! ### Measurements of one second -/

/-- The flow of a second in L/min (R38). -/
def flowOf (pulses factor : Nat) : Nat := min 4095 (pulses * 60 / factor)

/-- The difference of two readings. -/
def readingGap (a b : Nat) : Nat := max a b - min a b

/-- The probe status and the reconciled temperature, 255 when invalid, of two readings (R56). -/
def reconcile (t1 t2 : Nat) : ProbeStatus × Nat :=
  if t1 ≤ 240 then
    if t2 ≤ 240 then
      if readingGap t1 t2 ≤ 4 then (.agree, (t1 + t2) / 2)
      else if readingGap t1 t2 ≤ 12 then (.corrected, min t1 t2)
      else (.failed, 255)
    else (.corrected, t1)
  else if t2 ≤ 240 then (.corrected, t2)
  else (.failed, 255)

/-- Whether a reconciled temperature is valid (R55). -/
def tempValid (t : Nat) : Bool := decide (t ≤ 240)

/-- The temperature minimum and maximum with a valid reconciled temperature entered (R37 stage 3). -/
def StepRecord.withTemp (r : StepRecord) (t : Nat) : StepRecord :=
  if tempValid t then
    { r with
      tMin := min r.tMin t
      tMax := if r.tMax = 255 then t else max r.tMax t }
  else r

/-- Corrected and failed seconds counted from a status (R57). -/
def StepRecord.withStatus (r : StepRecord) (st : ProbeStatus) : StepRecord :=
  match st with
  | .corrected => { r with corrected := satInc r.corrected 255 }
  | .failed => { r with failed := satInc r.failed 255 }
  | .agree => r
  | .none => r

/-- Elapsed seconds, and good seconds when the gate is true (R37 stage 5). -/
def StepRecord.withSecond (r : StepRecord) (gate : Bool) : StepRecord :=
  { r with
    elapsed := satInc r.elapsed 65535
    good := if gate then satInc r.good 65535 else r.good }

/-- The dose accumulator with an increment, staying at 16777215 (R64). -/
def StepRecord.withDose (r : StepRecord) (inc : Nat) : StepRecord :=
  { r with dose256 := min 16777215 (r.dose256 + inc) }

/-- The temperature band of a valid temperature of 40 or more (R61). -/
def bandOf (t : Nat) : Nat := min 15 ((t - 40) / 10)

/-- The weight of a temperature in a curve (R61). -/
def RecipeStore.weightAt (rs : RecipeStore) (curve t : Nat) : Nat :=
  if t < 40 then 0 else rs.weight curve (bandOf t)

/-- The flow factor (R62). -/
def flowFactor (q qNom : Nat) : Nat := min q qNom * 256 / qNom

/-- The gate of a RINSE step (R39). -/
def rinseGate (st : Step) (q : Nat) (spinning : Bool) (t : Nat) : Bool :=
  decide (st.qMin ≤ q) && spinning && (decide (st.medium ≠ .hotWater) || tempValid t)

/-- The gate of a WASH or SANITIZE step (R63). -/
def doseGate (st : Step) (q : Nat) (spinning : Bool) (t supply : Nat) : Bool :=
  decide (st.qMin ≤ q) && spinning && tempValid t && decide (st.minConc ≤ supply)

/-- The gate of the second by kind; INSPECT asks for flow alone (R71), DRAIN has none (R41). -/
def gateOf (st : Step) (q : Nat) (spinning : Bool) (t supply : Nat) : Bool :=
  match st.kind with
  | .rinse => rinseGate st q spinning t
  | .wash => doseGate st q spinning t supply
  | .sanitize => doseGate st q spinning t supply
  | .inspect => decide (st.qMin ≤ q)
  | .drain => false

/-- The increment of a second: W × F in a gated second of a dosed kind, else 0 (R63). -/
def incrementOf (rs : RecipeStore) (st : Step) (gate : Bool) (t q : Nat) : Nat :=
  if st.kind.dosed && gate then rs.weightAt st.curve t * flowFactor q st.flow else 0

/-- The probe fault count after a second (R58). -/
def probeFaultNext (count limit : Nat) (st : ProbeStatus) : Nat :=
  match st with
  | .failed => satInc count (limit + 1)
  | .agree => 0
  | .corrected => 0
  | .none => count

/-- A circuit with a second's flow taken and the step-second timer restarted (R36, R38). -/
def Circuit.withFlow (x : Circuit) (factor : Nat) : Circuit :=
  { x with
    heldQ := flowOf x.flowPulses factor
    flowPulses := 0
    stepSecond := some 1000 }

/-- A circuit with a second's readings reconciled and kept (R54 to R57, R69, R84). -/
def Circuit.withReadings (x : Circuit) (ch : Channels) : Circuit :=
  let r := reconcile ch.t1 ch.t2
  { x with
    rcd := (x.rcd.withStatus r.1).withTemp r.2
    lastTemp := r.2
    lastStatus := r.1
    lastReturn := ch.ret
    lastSupply := ch.supply
    lastTurbidity := ch.turbidity }

/-- A circuit after stages 1 to 5 of a RINSE, WASH or SANITIZE second (R37), the probe fault count
included (R58). -/
def Circuit.afterSecond (x : Circuit) (st : Step) (ch : Channels) (rs : RecipeStore)
    (factor faultLimit : Nat) : Circuit :=
  let y := (x.withFlow factor).withReadings ch
  let gate := gateOf st y.heldQ x.spinning y.lastTemp ch.supply
  let inc := incrementOf rs st gate y.lastTemp y.heldQ
  { y with
    rcd := (y.rcd.withSecond gate).withDose inc
    lastIncrement := inc
    probeFault := probeFaultNext x.probeFault faultLimit y.lastStatus }

/-- The completion test of a kind (R39, R65). -/
def stepComplete (st : Step) (r : StepRecord) : Bool :=
  match st.kind with
  | .rinse => decide (st.target ≤ r.good)
  | .wash => decide (st.target ≤ r.dose)
  | .sanitize => decide (st.target ≤ r.dose)
  | .drain => false
  | .inspect => false

/-- The time failure of a kind (R39, R40). -/
def timeFailure (k : StepKind) : ResultCode := if k.dosed then .doseShort else .timeShort

/-- A step second of a RINSE, WASH or SANITIZE step: stages 1 to 7, then the probe fault test (R37,
R58). -/
def stepSecondOf (c : Side) (st : Step) (s : State) : State :=
  let x :=
    (s.circ c).afterSecond st (s.channels c) s.store (s.meterFactor c) s.cfg.probeFaultLimit
  let s1 := flagProbe x.lastStatus (s.setCirc c x)
  if stepComplete st x.rcd then finishStep c st .done s1
  else if st.maxTime ≤ x.rcd.elapsed then failStep c st (timeFailure st.kind) s1
  else if s.cfg.probeFaultLimit < x.probeFault then failStep c st .probe s1
  else s1

/-- A step second of a DRAIN step (R41). -/
def drainSecondOf (c : Side) (st : Step) (s : State) : State :=
  let x := (s.circ c).withFlow (s.meterFactor c)
  let y := { x with rcd := { x.rcd with elapsed := satInc x.rcd.elapsed 65535 } }
  let s1 := s.setCirc c y
  if st.maxTime ≤ y.rcd.elapsed then finishStep c st .drainLimit s1 else s1

/-! ### INSPECT (R71 to R81) -/

/-- Whether a second lies in the sample window (R72). -/
def inWindow (duration elapsed : Nat) : Bool := decide (duration < elapsed + 10)

/-- The sample set with one more sample (R73). -/
def SampleSet.take (m : SampleSet) (ch : Channels) : SampleSet :=
  ⟨m.n + 1, m.excess + (ch.ret - ch.supply), m.turbidity + ch.turbidity⟩

/-- A circuit after stages 1 to 6 of an INSPECT second (R71). -/
def Circuit.afterInspectSecond (x : Circuit) (st : Step) (ch : Channels) (factor : Nat) : Circuit :=
  let y := (x.withFlow factor).withReadings ch
  let gate := gateOf st y.heldQ x.spinning y.lastTemp ch.supply
  let r := y.rcd.withSecond gate
  { y with
    rcd := r
    lastIncrement := 0
    samples := if gate && inWindow st.target r.elapsed then x.samples.take ch else x.samples }

/-- Whether the residue test fails (R74, R76). -/
def residueFails (st : Step) (m : SampleSet) : Bool :=
  decide (st.excessLimit < meanOf m.excess m.n) ||
  decide (st.turbidityLimit < meanOf m.turbidity m.n) || decide (m.n < 5)

/-- The verdict of a run (R74 to R77). -/
def verdictOf (st : Step) (m : SampleSet) (revolutions coverageMin : Nat) : ResultCode :=
  if revolutions < coverageMin then .failCoverage
  else if residueFails st m then .failResidue
  else .pass

/-- The retries a compartment of the active job has used (R13). -/
def State.retriesUsed (s : State) (i : Nat) : Nat :=
  match s.comp? i with
  | some c => c.retriesUsed
  | none => 0

/-- The end of an INSPECT run: verdict, entry, and PASS, retry or rejection (R77 to R81). -/
def endInspect (c : Side) (st : Step) (s : State) : State :=
  let i := (s.circ c).comp
  match s.recipeOf i with
  | some r =>
    let verdict := verdictOf st (s.circ c).samples (s.compRevolutions i) r.coverageMin
    if verdict = .pass then enterRunOut c .pass true (closeStep c st .pass s)
    else if verdict = .failResidue ∧ s.retriesUsed i < r.retryLimit then
      let s1 := s.modComp i fun k => { k with retriesUsed := k.retriesUsed + 1 }
      beginStep c r.repeatIndex true (closeStep c st .failResidue s1)
    else enterRunOut c (.ends .rejected verdict) true (closeStep c st verdict s)
  | none => s

/-- A step second of an INSPECT step (R71). -/
def inspectSecondOf (c : Side) (st : Step) (s : State) : State :=
  let x := (s.circ c).afterInspectSecond st (s.channels c) (s.meterFactor c)
  let s1 := flagProbe x.lastStatus (s.setCirc c x)
  if st.target ≤ x.rcd.elapsed then endInspect c st s1 else s1

/-! ### Rows of the step-second timer -/

/-- Whether the step-second timer of a circuit in RUN runs. -/
def State.secondDue (s : State) (c : Side) : Bool :=
  decide ((s.circ c).state = .running) && timerRuns (s.circ c).stepSecond

/-- STEP_SECOND's effect: only on a RINSE, WASH or SANITIZE step in RUN. -/
def doStepSecond (c : Side) (s : State) : State :=
  if s.secondDue c then
    match s.stepOf c with
    | some st => if st.kind.washes then stepSecondOf c st s else s
    | none => s
  else s

/-- DRAIN_STEP_SECOND's effect: only on a DRAIN step in RUN. -/
def doDrainSecond (c : Side) (s : State) : State :=
  if s.secondDue c then
    match s.stepOf c with
    | some st => if st.kind = .drain then drainSecondOf c st s else s
    | none => s
  else s

/-- INSPECT_STEP_SECOND's effect: only on an INSPECT step in RUN. -/
def doInspectSecond (c : Side) (s : State) : State :=
  if s.secondDue c then
    match s.stepOf c with
    | some st => if st.kind = .inspect then inspectSecondOf c st s else s
    | none => s
  else s

/-- STEP_SECOND (R37). -/
def execStepSecond (c : Side) (s : State) : Host.Outcome State Fault Refusal :=
  .next (doStepSecond c s)

/-- DRAIN_STEP_SECOND (R41). -/
def execDrainStepSecond (c : Side) (s : State) : Host.Outcome State Fault Refusal :=
  .next (doDrainSecond c s)

/-- INSPECT_STEP_SECOND (R71). -/
def execInspectStepSecond (c : Side) (s : State) : Host.Outcome State Fault Refusal :=
  .next (doInspectSecond c s)

/-! ### Rows of the circuits' inputs -/

/-- FLOW_METER_PULSE (R38): counted in RUN alone. -/
def execFlowMeterPulse (c : Side) (s : State) : Host.Outcome State Fault Refusal :=
  .next (if (s.circ c).state = .running then
    s.modCirc c fun x => { x with flowPulses := x.flowPulses + 1 } else s)

/-- A spinner pulse in RUN (R44, R45, R46). -/
def Circuit.spinnerPulse (x : Circuit) (stallTime : Nat) : Circuit :=
  { x with
    stallMonitor := some stallTime
    spinning := true
    stallLimit := none
    rcd := { x.rcd with pulses := x.rcd.pulses + 1 } }

/-- SPINNER_PULSE (R44). -/
def execSpinnerPulse (c : Side) (s : State) : Host.Outcome State Fault Refusal :=
  .next (if (s.circ c).state = .running then
    s.modCirc c fun x => x.spinnerPulse s.cfg.stallTime else s)

/-- A temperature as the front end encodes it (R53). -/
def encodeTemp : Conversion → Nat
  | none => 255
  | some v => min 254 v.toNat

/-- A conductivity or turbidity as the front end encodes it (R53). -/
def encodeLevel (limit : Nat) : Conversion → Nat
  | none => 0
  | some v => min limit v.toNat

/-- The five channels of a circuit as the front end holds them (R53). -/
def encodeChannels (v : Conversions) : Channels where
  t1 := encodeTemp v.t1
  t2 := encodeTemp v.t2
  supply := encodeLevel 65535 v.supply
  ret := encodeLevel 65535 v.ret
  turbidity := encodeLevel 9999 v.turbidity

/-- PROBE_SAMPLE (R52): every channel of both circuits takes its new reading, in every bay state. -/
def execProbeSample (a b : Conversions) (s : State) : Host.Outcome State Fault Refusal :=
  .next { s with frontEnd := ⟨encodeChannels a, encodeChannels b⟩ }

/-- Starts the sump timer of a circuit whose DRAIN step is in RUN (R41). -/
def startSump (c : Side) (s : State) : State :=
  match s.stepOf c with
  | some st =>
    if (s.circ c).state = .running ∧ st.kind = .drain then
      s.modCirc c fun x => { x with sump := startTimer x.sump 5000 }
    else s
  | none => s

/-- SUMP_EMPTY_ASSERTED (R41). -/
def execSumpEmptyAsserted (s : State) : Host.Outcome State Fault Refusal :=
  .next (if s.pins.sump then s
    else startSump .b (startSump .a { s with pins := { s.pins with sump := true } }))

/-- SUMP_EMPTY_DEASSERTED (R41): the sump timers stop. -/
def execSumpEmptyDeasserted (s : State) : Host.Outcome State Fault Refusal :=
  .next (if s.pins.sump then
    { s with
      pins := { s.pins with sump := false }
      circA := { s.circA with sump := none }
      circB := { s.circB with sump := none } }
    else s)

/-! ### Rows of the circuits' timers -/

/-- SUMP_TIMER_EXPIRY (R41): the DRAIN step ends DONE. -/
def execSumpTimerExpiry (c : Side) (s : State) : Host.Outcome State Fault Refusal :=
  .next (if timerRuns (s.circ c).sump then
    let s1 := s.modCirc c fun x => { x with sump := none }
    match s.stepOf c with
    | some st => finishStep c st .done s1
    | none => s1
    else s)

/-- The circuit at the expiry of its stall monitor (R44, R45). -/
def Circuit.stalled (x : Circuit) (washes : Bool) (limit : Nat) : Circuit :=
  { x with
    stallMonitor := none
    spinning := false
    stallLimit := if washes then startTimer x.stallLimit limit else x.stallLimit }

/-- Whether the circuit's current step is a RINSE, WASH or SANITIZE step. -/
def State.washesNow (s : State) (c : Side) : Bool :=
  match s.stepOf c with
  | some st => st.kind.washes
  | none => false

/-- STALL_MONITOR_EXPIRY (R44, R45). -/
def execStallMonitorExpiry (c : Side) (s : State) : Host.Outcome State Fault Refusal :=
  .next (if timerRuns (s.circ c).stallMonitor then
    flagStall (s.modCirc c fun x => x.stalled (s.washesNow c) (s.cfg.stallLimit * 1000))
    else s)

/-- STALL_LIMIT_EXPIRY (R45): the step fails SPINNER. -/
def execStallLimitExpiry (c : Side) (s : State) : Host.Outcome State Fault Refusal :=
  .next (if timerRuns (s.circ c).stallLimit then
    let s1 := s.modCirc c fun x => { x with stallLimit := none }
    match s.stepOf c with
    | some st => failStep c st .spinner s1
    | none => s1
    else s)

/-- RUN_OUT_EXPIRY (R49). -/
def execRunOutExpiry (c : Side) (s : State) : Host.Outcome State Fault Refusal :=
  .next (if timerRuns (s.circ c).runOut then endRunOut c true s else s)

/-- DROP_WAIT_EXPIRY (R17): the compartment becomes FAILED(NO_DROP). -/
def execDropWaitExpiry (k : Consumer) (s : State) : Host.Outcome State Fault Refusal :=
  .next (match k with
    | .a =>
      if timerRuns s.circA.dropWait then endCompFromCirc .a .failed .noDrop true s else s
    | .b =>
      if timerRuns s.circB.dropWait then endCompFromCirc .b .failed .noDrop true s else s
    | .fill =>
      if timerRuns s.fill.dropWait then endFillAtOnce .failed .noDrop true s else s)

end Sys2Proof.Machine
end

