-- ==== Sys2Proof/Machine/Aborts.lean ====
section
/-!
DEFINITION. Aborts and drop losses (R22 to R24, R50, R83, R99): one operation for both, with the reason
as its operand; and the rows of the hose-connection inputs (R17, R24).
-/

namespace Sys2Proof.Machine

/-- What ends a compartment from outside: an abort by the host or the loss of its drop (R22, R24). -/
inductive Cut where
  | host
  | dropLost
  deriving DecidableEq, Repr

/-- The terminal state a cut leads to. -/
def Cut.state : Cut → CompState
  | .host => .aborted
  | .dropLost => .failed

/-- The reason a cut sets. -/
def Cut.reason : Cut → ResultCode
  | .host => .host
  | .dropLost => .dropLost

/-- The close kind a cut gives a fill (R99). -/
def Cut.closeKind : Cut → CloseKind
  | .host => .abort
  | .dropLost => .dropLost

/-- A compartment in WASHING on circuit `c` is cut (R22, R24): at once when PAUSED in SAFE, else through
RUN_OUT. -/
def cutWashing (c : Side) (k : Cut) (take : Bool) (s : State) : State :=
  match (s.circ c).state with
  | .paused =>
    if s.inSafe then endCompFromCirc c k.state k.reason take (cutStep c s)
    else enterRunOut c (.ends k.state k.reason) take (cutStep c s)
  | .admitting => enterRunOut c (.ends k.state k.reason) take (cutStep c s)
  | .running => enterRunOut c (.ends k.state k.reason) take (cutStep c s)
  | .idle => s
  | .waitDrop => s
  | .runOut => s

/-- A CLOSING already under way takes the close kind of the cut, unless a first cut has set it
(R99). -/
def recutClosing (k : Cut) (s : State) : State :=
  match s.fill.closeKind with
  | .abort => s
  | .dropLost => s
  | .none => { s with fill := { s.fill with closeKind := k.closeKind } }
  | .normal => { s with fill := { s.fill with closeKind := k.closeKind } }
  | .high => { s with fill := { s.fill with closeKind := k.closeKind } }

/-- A compartment in FILLING is cut (R22, R24, R99). -/
def cutFilling (i : Nat) (k : Cut) (take : Bool) (s : State) : State :=
  match s.fill.state with
  | .admitting => endFillAtOnce k.state k.reason take s
  | .awaitSkid => endFillAtOnce k.state k.reason take s
  | .interrupted => endFillAtOnce k.state k.reason take s
  | .flowing => setCompState i .ending (some .fill) (enterClosing k.closeKind s)
  | .closing => setCompState i .ending (some .fill) (recutClosing k s)
  | .idle => s
  | .waitDrop => s

/-- A compartment in WAIT_DROP is aborted (R22). -/
def abortWaiting (owner : Option Consumer) (take : Bool) (s : State) : State :=
  match owner with
  | some .a => endCompFromCirc .a .aborted .host take s
  | some .b => endCompFromCirc .b .aborted .host take s
  | some .fill => endFillAtOnce .aborted .host take s
  | none => s

/-- A compartment in FILL_WAIT is aborted: it leaves the order (R16, R22). -/
def abortFillWait (i : Nat) (s : State) : State :=
  endComp i .aborted .host { s with fill := { s.fill with order := s.fill.order.erase i } }

/-- The wash circuit that owns a compartment in WASHING, cut there. -/
def cutOwner (owner : Option Consumer) (k : Cut) (take : Bool) (s : State) : State :=
  match owner with
  | some .a => cutWashing .a k take s
  | some .b => cutWashing .b k take s
  | some .fill => s
  | none => s

/-- ABORT_COMP on compartment `i` of the active job, by its state (R22, table). -/
def abortCompartment (i : Nat) (take : Bool) (s : State) : State :=
  match s.comp? i with
  | some c =>
    match c.state with
    | .queued => endComp i .aborted .host s
    | .waitDrop => abortWaiting c.owner take s
    | .washing => cutOwner c.owner .host take s
    | .fillWait => abortFillWait i s
    | .filling => cutFilling i .host take s
    | .ending => s
    | .done => s
    | .skipped => s
    | .failed => s
    | .rejected => s
    | .aborted => s
  | none => s

/-- The loss of the drop of compartment `i`: only in WASHING or FILLING (R24). -/
def loseDrop (i : Nat) (s : State) : State :=
  match s.comp? i with
  | some c =>
    match c.state with
    | .washing => cutOwner c.owner .dropLost true s
    | .filling => cutFilling i .dropLost true s
    | .queued => s
    | .waitDrop => s
    | .fillWait => s
    | .ending => s
    | .done => s
    | .skipped => s
    | .failed => s
    | .rejected => s
    | .aborted => s
  | none => s

/-- Whether an ABORT_JOB has anything to do with a compartment (R23). -/
def Comp.abortable (c : Comp) : Bool := decide (c.state ≠ .ending) && !c.state.terminal

/-- The numbers of the compartments an ABORT_JOB acts on, from number `i` on. -/
def abortTargets (i : Nat) : List Comp → List Nat
  | [] => []
  | c :: rest => if c.abortable then i :: abortTargets (i + 1) rest else abortTargets (i + 1) rest

/-- ABORT_JOB: each compartment in order, nothing taken meanwhile (R23). -/
def abortAll (s : State) : State :=
  (abortTargets 1 s.comps).foldl (fun t i => abortCompartment i false t) s

/-- A compartment in WAIT_DROP leaves it at the assertion of its CONNd (R17). -/
def connectOwner (owner : Option Consumer) (s : State) : State :=
  match owner with
  | some .a => leaveWaitDropCirc .a s
  | some .b => leaveWaitDropCirc .b s
  | some .fill => leaveWaitDropFill s
  | none => s

/-- The effect of CONNd asserted on compartment `i` (R17). -/
def connectDrop (i : Nat) (s : State) : State :=
  match s.comp? i with
  | some c => if c.state = .waitDrop then connectOwner c.owner s else s
  | none => s

/-- CONN_ASSERTED (R14, R17, R18). -/
def execConnAsserted (d : Drop) (s : State) : Host.Outcome State Fault Refusal :=
  .next (if s.conn d.num then s
    else
      let s1 := { s with pins := { s.pins with conn := setPin s.pins.conn d.num true } }
      match s1.compAtDrop d.num with
      | some i => connectDrop i s1
      | none => s1)

/-- CONN_DEASSERTED (R14, R24). -/
def execConnDeasserted (d : Drop) (s : State) : Host.Outcome State Fault Refusal :=
  .next (if s.conn d.num then
      let s1 := { s with pins := { s.pins with conn := setPin s.pins.conn d.num false } }
      match s1.compAtDrop d.num with
      | some i => loseDrop i s1
      | none => s1
    else s)

end Sys2Proof.Machine
end

