-- ==== Sys2Proof/Machine/FillRows.lean ====
section
/-!
DEFINITION. The rows of the fill controller: the skid's delivery lines (R88, R89), the high-level inputs
(R93), the fill meter (R91, R92) and the fill timers (R90, R94).
-/

namespace Sys2Proof.Machine

/-- HIGH_ASSERTED (R93): a trip in FLOWING when the input is that of the served drop. `level` false is
the input's return, which has no effect but on the pin (notes/assumptions/9.md). -/
def execHighAsserted (d : Drop) (level : Bool) (s : State) : Host.Outcome State Fault Refusal :=
  .next (if s.high d.num = level then s
    else
      let s1 := { s with pins := { s.pins with high := setPin s.pins.high d.num level } }
      if level = true ∧ s.fill.state = .flowing ∧ s.fill.dropSel = d.num then enterClosing .high s1
      else s1)

/-- DELIV_ASSERTED (R88): the skid's answer in AWAIT_SKID on the served line. -/
def execDelivAsserted (l : FillLine) (s : State) : Host.Outcome State Fault Refusal :=
  .next (if s.deliv l.num then s
    else
      let s1 := { s with pins := { s.pins with deliv := setPin s.pins.deliv l.num true } }
      if s.fill.state = .awaitSkid ∧ s.fill.line = l.num then skidAnswer s1 else s1)

/-- DELIV_DEASSERTED (R89, R90): SKID_STOPPED in FLOWING on the served line. -/
def execDelivDeasserted (l : FillLine) (s : State) : Host.Outcome State Fault Refusal :=
  .next (if s.deliv l.num then
      let s1 := { s with pins := { s.pins with deliv := setPin s.pins.deliv l.num false } }
      if s.fill.state = .flowing ∧ s.fill.line = l.num then failFill .skidStopped s1 else s1
    else s)

/-- The controller with one more meter pulse counted (R91). -/
def FillController.counted (f : FillController) : FillController :=
  { f with pulses := satInc f.pulses maxCount }

/-- A meter pulse in FLOWING: counted, the no-flow monitor restarted, the close point tested (R89,
R92). -/
def pulseFlowing (s : State) : State :=
  let s1 :=
    { s with fill := { s.fill.counted with noFlow := some (s.cfg.noFlowTime * 1000) } }
  if s1.fill.closePoint ≤ s1.fill.pulses then enterClosing .normal s1 else s1

/-- FILL_METER_PULSE (R91, R92). -/
def execFillMeterPulse (s : State) : Host.Outcome State Fault Refusal :=
  .next (match s.fill.state with
    | .flowing => pulseFlowing s
    | .closing => { s with fill := s.fill.counted }
    | .idle => s
    | .waitDrop => s
    | .admitting => s
    | .awaitSkid => s
    | .interrupted => s)

/-- SKID_TIMER_EXPIRY (R90). -/
def execSkidTimerExpiry (s : State) : Host.Outcome State Fault Refusal :=
  .next (if timerRuns s.fill.skid then failFill .noSkid s else s)

/-- NO_FLOW_EXPIRY (R90). -/
def execNoFlowExpiry (s : State) : Host.Outcome State Fault Refusal :=
  .next (if timerRuns s.fill.noFlow then failFill .noFlow s else s)

/-- FILL_RUN_OUT_EXPIRY (R94). -/
def execFillRunOutExpiry (s : State) : Host.Outcome State Fault Refusal :=
  .next (if timerRuns s.fill.runOut then endFillRunOut s else s)

end Sys2Proof.Machine
end

