-- ==== Sys2Proof/Machine/Framing.lean ====
section
/-!
DEFINITION. The bits of a frame on the yard line as pure functions: the order of bits in a content
(R148), the CRC (R149), zero insertion (R148), the checks of a received frame (R151), where a readback
mismatch is a lost arbitration and where a bit error (R155, R156), the receive framer (R150), and the
content a good frame carries.
-/

namespace Sys2Proof.Machine

/-- The bits of a byte from bit 7 down to bit 0. -/
def bitsHighFirst (b : Byte) : List Bool :=
  [b.getLsbD 7, b.getLsbD 6, b.getLsbD 5, b.getLsbD 4, b.getLsbD 3, b.getLsbD 2, b.getLsbD 1,
    b.getLsbD 0]

/-- The bits of a byte from bit 0 up to bit 7. -/
def bitsLowFirst (b : Byte) : List Bool := (bitsHighFirst b).reverse

/-- The bits of a content in the order sent: the arbitration byte high bit first, every other byte low
bit first (R148). -/
def contentBits : List Byte → List Bool
  | [] => []
  | arb :: rest => bitsHighFirst arb ++ rest.flatMap bitsLowFirst

/-- One content bit into the CRC register; bit 15 of the word is the x^15 position (R149). -/
def crcStep (r : BitVec 16) (b : Bool) : BitVec 16 :=
  let shifted := r <<< 1
  if (r.getLsbD 15) != b then shifted ^^^ 0x1021#16 else shifted

/-- The CRC register after the content bits, from every position at 1 (R149). -/
def crcOf (bits : List Bool) : BitVec 16 := bits.foldl crcStep 0xFFFF#16

/-- The sixteen bits sent after the content: the complement of each position, x^15 first (R149). -/
def crcBits (bits : List Bool) : List Bool :=
  (List.range 16).map fun i => !((crcOf bits).getLsbD (15 - i))

/-- Zero insertion after every run of five consecutive 1s; `ones` is the run so far (R148). -/
def insertZeros (ones : Nat) : List Bool → List Bool
  | [] => []
  | false :: rest => false :: insertZeros 0 rest
  | true :: rest =>
    if ones = 4 then true :: false :: insertZeros 0 rest
    else true :: insertZeros (ones + 1) rest

/-- The flag 01111110 (R148). -/
def flagBits : List Bool := [false, true, true, true, true, true, true, false]

/-- The content and CRC bits of a frame before zero insertion (R148). -/
def frameBits (content : List Byte) : List Bool :=
  contentBits content ++ crcBits (contentBits content)

/-- The bits of a whole frame as driven on the line (R148). -/
def lineBits (content : List Byte) : List Bool :=
  flagBits ++ insertZeros 0 (frameBits content) ++ flagBits

/-- How many bits of a frame lie in its opening flag and its arbitration byte, a 0 inserted in that
byte included (R155). -/
def arbitrationBits (content : List Byte) : Nat :=
  8 + (insertZeros 0 (contentBits (content.take 1))).length

/-- A bit at which a readback mismatch is lost arbitration: a 1 sent in the opening flag or the
arbitration byte, and taken 0 (R155). -/
def losesAt (content : List Byte) (k : Nat) : Bool :=
  decide (k < arbitrationBits content) && (lineBits content).getD k false

/-- A bit at which a readback mismatch is a bit error: every other bit of the frame (R156). -/
def errsAt (content : List Byte) (k : Nat) : Bool :=
  decide (k < (lineBits content).length) && !losesAt content k

/-- The value of a byte's bits received, low bit first. -/
def byteOfBits (bits : List Bool) : Nat :=
  bits.foldr (fun b n => (if b then 1 else 0) + 2 * n) 0

/-- The content length of a class, in bits (R148). -/
def classBits : Nat → Option Nat
  | 0 => some 152
  | 1 => some 152
  | 2 => some 16
  | _ => none

/-- The checks of a frame at its closing flag, on its destuffed bits, in order; none for a good frame
(R151). -/
def checkFrame (bits : List Bool) : Option DiscardReason :=
  let content := bits.take (bits.length - 16)
  let sent := bits.drop (bits.length - 16)
  if bits.length < 32 then some .short
  else if bits.length % 8 ≠ 0 then some .align
  else if crcBits content ≠ sent then some .crc
  else if classBits (byteOfBits (content.take 4).reverse) ≠ some content.length then some .format
  else none

/-! ### The receive framer, bit by bit (R150) -/

/-- What a bit does to the frame in reception (R150). -/
inductive FramerEvent where
  | nothing
  /-- The last 0 of an opening flag. -/
  | opened
  /-- The last 0 of a closing flag, with the destuffed bits of the frame. -/
  | closed (bits : List Bool)
  /-- The seventh consecutive 1 in a frame. -/
  | aborted
  /-- The 209th destuffed bit. -/
  | long
  deriving DecidableEq, Repr

/-- The framer back in IDLE, with no own mark (R150, R158). -/
def Framer.idle (f : Framer) : Framer :=
  { f with
    inFrame := false, armed := false, held := false, bits := [], own := false,
    afterBitError := false }

/-- The framer entering IN_FRAME, with no bits in the frame and the own mark as given (R150, R158). -/
def Framer.opened (f : Framer) (own : Bool) : Framer :=
  { f with
    inFrame := true, ones := 0, armed := false, held := false, bits := [], own := own,
    afterBitError := false }

/-- The destuffed bits once the bits held back are known to be part of the frame: the 0 that might have
been a closing flag's first, and the 1s after it (R150). -/
def Framer.confirmed (f : Framer) : List Bool :=
  f.bits ++ (if f.held then [false] else []) ++ List.replicate f.ones true

/-- A 1 taken (R150). -/
def Framer.takeOne (f : Framer) : Framer × FramerEvent :=
  if f.inFrame && decide (f.ones = 6) then ({ f.idle with ones := 7 }, .aborted)
  else ({ f with ones := satInc f.ones 7 }, .nothing)

/-- A 0 taken in IDLE: the last of a flag whose first 0 followed at least seven 1s opens a frame
(R150). -/
def Framer.takeZeroIdle (f : Framer) (own : Bool) : Framer × FramerEvent :=
  if f.armed && decide (f.ones = 6) then (f.opened own, .opened)
  else ({ f with armed := decide (f.ones = 7), ones := 0 }, .nothing)

/-- A 0 taken in IN_FRAME: the last of a closing flag, an inserted 0, or a bit held back until the next
one tells (R150). A frame is LONG when the bits known to be part of it pass 208
(notes/assumptions/32.md). -/
def Framer.takeZeroInFrame (f : Framer) : Framer × FramerEvent :=
  if f.ones = 6 then ({ f.idle with ones := 0 }, .closed f.bits)
  else if 208 < f.confirmed.length then ({ f.idle with ones := 0 }, .long)
  else ({ f with bits := f.confirmed, held := decide (f.ones ≠ 5), ones := 0 }, .nothing)

/-- One bit taken by the framer (R150); `own` says whether a frame it opens is the station's own
(R158). -/
def Framer.take (f : Framer) (own b : Bool) : Framer × FramerEvent :=
  if b then f.takeOne
  else if f.inFrame then f.takeZeroInFrame
  else f.takeZeroIdle own

/-- The framer's events over a run of bits taken, with the framer after them. -/
def Framer.takeAll (f : Framer) (own : Bool) : List Bool → Framer × List FramerEvent
  | [] => (f, [])
  | b :: rest =>
    let r := f.take own b
    let q := Framer.takeAll r.1 own rest
    (q.1, r.2 :: q.2)

/-! ### The content of a good frame (R148, chapter 12.3) -/

/-- The bytes of a content after its arbitration byte, each low bit first, `n` of them (R148). -/
def bytesLowFirst : Nat → List Bool → List Byte
  | 0, _ => []
  | n + 1, bits => BitVec.ofNat 8 (byteOfBits (bits.take 8)) :: bytesLowFirst n (bits.drop 8)

/-- The content of a frame from its content bits, the arbitration byte high bit first (R148). -/
def contentOf (bits : List Bool) : List Byte :=
  BitVec.ofNat 8 (byteOfBits (bits.take 8).reverse) ::
    bytesLowFirst (bits.length / 8 - 1) (bits.drop 8)

/-- A two-byte field of a content, low byte first. -/
def fieldAt (b : List Byte) (i : Nat) : BitVec 16 := BitVec.ofNat 16 (wordAt b i)

/-- The fields of the content of an ANNOUNCE or LEAVE (chapter 12.3). -/
def reportOf (b : List Byte) : StationReport where
  address := BitVec.ofNat 4 (byteAt b 0)
  bayCode := BitVec.ofNat 4 (byteAt b 1)
  safeFlag := (b.getD 1 0).getLsbD 4
  leavingFlag := (b.getD 1 0).getLsbD 5
  derateSeen := (b.getD 1 0).getLsbD 6
  capSet := b.getD 2 0
  committedHeat := fieldAt b 3
  committedFlow := fieldAt b 5
  committedDrain := fieldAt b 7
  heldLines := b.getD 9 0
  intentHeat := fieldAt b 10
  intentFlow := fieldAt b 12
  intentDrain := fieldAt b 14
  intentLine := b.getD 16 0
  intentAge := b.getD 17 0
  newestAge := b.getD 18 0

end Sys2Proof.Machine
end

