-- ==== Sys2Proof/Machine/Line.lean ====
section
/-!
DEFINITION. The yard line unit's shared operations (chapter 8): frames handed to the transmit side
(R153), outcomes entered in the line-health window (R159, R160), discards (R151), the choice of an
attempt's content (R153), the release of a sent content (R157), the sample clock (R144 to R147), and
what a bit does to the framer and the line (R150, R152).
-/

namespace Sys2Proof.Machine

/-! ### Frames handed (R153) -/

/-- An ANNOUNCE handed: replaces an earlier one, is dropped behind a LEAVE (R153). -/
def PendingFrame.withAnnounce (p : PendingFrame) (content : List Byte) (intent : Option IntentTag) :
    PendingFrame :=
  match p with
  | .empty => .announce content intent false
  | .announce _ _ _ => .announce content intent false
  | .leave c a b t => .leave c a b t

/-- A LEAVE handed for the safe stop logic or the soft reset sequence (R153). -/
def PendingFrame.withLeave (p : PendingFrame) (content : List Byte) (toSafeStop toReset : Bool) :
    PendingFrame :=
  match p with
  | .empty => .leave content toSafeStop toReset false
  | .announce _ _ _ => .leave content toSafeStop toReset false
  | .leave c a b t => .leave c (a || toSafeStop) (b || toReset) t

/-- Hands the own ANNOUNCE as it stands now (R123). -/
def handAnnounce (s : State) : State :=
  { s with
    line :=
      { s.line with
        pendingFrame := s.line.pendingFrame.withAnnounce s.announceContent s.intentTag } }

/-- Hands a LEAVE as it stands now (R124). -/
def handLeave (toSafeStop toReset : Bool) (s : State) : State :=
  { s with
    line :=
      { s.line with
        pendingFrame := s.line.pendingFrame.withLeave s.leaveContent toSafeStop toReset } }

/-- Hands a ROLL_CALL (R129). -/
def handRollCall (s : State) : State :=
  { s with line := { s.line with rollCall := some ⟨s.rollCallContent, false⟩ } }

/-! ### Line health (R159, R160) -/

/-- The window with one more outcome, the oldest leaving at the 33rd (R159). -/
def LineUnit.windowWith (l : LineUnit) (bad : Bool) : List Bool :=
  if l.window.length < 32 then l.window ++ [bad] else l.window.drop 1 ++ [bad]

/-- An outcome enters the window and the line state is tested (R159, R160). -/
def enterOutcome (bad : Bool) (reason : DiscardReason) (s : State) : State :=
  let l := { s.line with window := s.line.windowWith bad }
  if !l.degraded && decide (8 ≤ l.badCount) then
    raise .lineDegraded l.badCount reason.code 0 { s with line := { l with degraded := true } }
  else if l.degraded && decide (l.badCount ≤ 2) then
    raise .lineGood l.badCount 0 0 { s with line := { l with degraded := false } }
  else { s with line := l }

/-- Returns the framer to IDLE. -/
def framerIdle (s : State) : State := { s with line := { s.line with framer := s.line.framer.idle } }

/-- The line unit at the last 0 of a closing flag: the framer IDLE, the line busy (R150, R152). -/
def LineUnit.atFlag (l : LineUnit) : LineUnit :=
  { l with framer := { l.framer.idle with ones := 0 }, free := false, quietOnes := 0 }

/-- What a discard enters, the framer being IDLE again: its reason, the sticky flag and a bad outcome
(R151); nothing for a frame marked own, or one whose own mark a bit error cleared (R158). -/
def noteDiscard (f : Framer) (reason : DiscardReason) (s : State) : State :=
  if f.own || f.afterBitError then s
  else
    enterOutcome true reason
      (flagBadFrame
        { s with line := { s.line with framer := { s.line.framer with lastDiscard := reason } } })

/-- The discard of the frame in reception outside its bits (R146, R151). -/
def discardFrame (reason : DiscardReason) (s : State) : State :=
  noteDiscard s.line.framer reason (framerIdle s)

/-! ### Attempts (R153, R157) -/

/-- Whether the sample last taken is the first of its cell, begun by an edge or without one. -/
def LineUnit.atCellStart (l : LineUnit) : Bool := decide (l.clock.sample = 0)

/-- The line unit with an attempt begun on a frame: its first bit is driven in the cell that begins now, or,
before a cell's first sample, in the next one (R154, notes/assumptions/33.md). -/
def LineUnit.begin (l : LineUnit) (f : SentFrame) (content : List Byte) : LineUnit :=
  { l with attempt := some ⟨f, content, if l.atCellStart then 1 else 0⟩ }

/-- An attempt takes its content: the LEAVE, else the ROLL_CALL, else the ANNOUNCE (R153). -/
def LineUnit.startAttempt (l : LineUnit) : LineUnit :=
  match l.pendingFrame with
  | .leave c a b _ => { l.begin .leave c with pendingFrame := .leave c a b true }
  | .announce c i _ =>
    match l.rollCall with
    | some r => { l.begin .rollCall r.content with rollCall := some { r with taken := true } }
    | none => { l.begin (.announce i) c with pendingFrame := .announce c i true }
  | .empty =>
    match l.rollCall with
    | some r => { l.begin .rollCall r.content with rollCall := some { r with taken := true } }
    | none => l

/-- A pending frame with no content taken by an attempt. -/
def PendingFrame.released : PendingFrame → PendingFrame
  | .empty => .empty
  | .announce c i _ => .announce c i false
  | .leave c a b _ => .leave c a b false

/-- The end of an attempt that leaves its content pending (R155, R156). -/
def LineUnit.endFailed (l : LineUnit) (o : AttemptOutcome) : LineUnit :=
  { l with
    attempt := none
    lastOutcome := o
    pendingFrame := l.pendingFrame.released
    rollCall := l.rollCall.map fun r => { r with taken := false } }

/-- The pending frame after an attempt that carried an ANNOUNCE was sent: empty, unless a newer content
has replaced it (R157). -/
def PendingFrame.afterAnnounce : PendingFrame → PendingFrame
  | .announce c i taken => if taken then .empty else .announce c i false
  | .empty => .empty
  | .leave c a b t => .leave c a b t

/-- The pending frame after a LEAVE was sent (R157). -/
def PendingFrame.afterLeave : PendingFrame → PendingFrame
  | .leave c a b taken => if taken then .empty else .leave c a b false
  | .empty => .empty
  | .announce c i t => .announce c i t

/-- The roll-call mark after a ROLL_CALL was sent: clear, unless a newer one has been handed (R157). -/
def rollCallAfter (r : Option RollCall) : Option RollCall :=
  match r with
  | some c => if c.taken then none else some c
  | none => none

/-- The end of an attempt SENT (R157, R158). -/
def LineUnit.endSent (l : LineUnit) (f : SentFrame) : LineUnit :=
  let l1 := { l.atFlag with attempt := none, lastOutcome := .sent }
  match f with
  | .leave => { l1 with pendingFrame := l1.pendingFrame.afterLeave }
  | .rollCall => { l1 with rollCall := rollCallAfter l1.rollCall }
  | .announce _ => { l1 with pendingFrame := l1.pendingFrame.afterAnnounce }

/-! ### Clock recovery (R144 to R147) -/

/-- The end of a whole cell: a cell without an edge counts towards 32, where the unit becomes UNLOCKED
(R144); the attempt in progress moves to its next bit (R154). -/
def LineUnit.endCell (l : LineUnit) : LineUnit :=
  let quiet := if l.clock.edgeInCell then l.clock.quietCells else satInc l.clock.quietCells 32
  { l with
    clock :=
      { l.clock with
        quietCells := quiet
        edgeInCell := false
        locked := l.clock.locked && decide (quiet < 32) }
    attempt := l.attempt.map fun a => { a with cells := a.cells + 1 } }

/-- The number of the sample after the present one, with an outstanding lengthening or shortening
(R145, R146). -/
def Clock.nextSample (c : Clock) : Nat :=
  if c.lengthen then c.sample
  else if c.shorten then c.sample + 2
  else c.sample + 1

/-- The sample clock moves on by one sample, without its bit (R144). -/
def LineUnit.advance (l : LineUnit) : LineUnit :=
  let n := l.clock.nextSample
  let l1 :=
    { l with
      clock :=
        { l.clock with
          sample := n % 16
          lengthen := false
          shorten := false
          sinceAdjust := satInc l.clock.sinceAdjust 17 } }
  if 16 ≤ n then l1.endCell else l1

/-- Whether a bit is taken at the next sample when the line keeps its level: at sample 8 (R144), not again
in the sample of a lengthening that holds the number 8. -/
def Clock.bitNext (c : Clock) : Bool := decide (c.nextSample % 16 = 8) && decide (c.sample ≠ 8)

/-- Whether the next sample begins a cell when the line keeps its level. -/
def Clock.cellNext (c : Clock) : Bool := decide (16 ≤ c.nextSample)

/-- What an edge does to clock recovery (R144 to R147). -/
inductive EdgeEffect where
  /-- On time, or ignored within 16 samples of an adjusting edge. -/
  | nothing
  /-- Late: the cell is one sample longer. -/
  | lengthen
  /-- Early: the cell is one sample shorter. -/
  | shorten
  /-- Displaced, or the first edge in UNLOCKED: its sample is sample 0 of a new cell. -/
  | restart
  /-- Halfway with phase shift disabled: the unit unlocks. -/
  | phaseError
  deriving DecidableEq, Repr

/-- The effect of an edge at a sample in LOCKED with phase shift enabled (R145). -/
def edgeWithShift (sample : Nat) : EdgeEffect :=
  if sample = 0 then .nothing
  else if sample ≤ 3 then .lengthen
  else if sample ≤ 12 then .restart
  else .shorten

/-- The effect of an edge at a sample in LOCKED with phase shift disabled (R146). -/
def edgeWithoutShift (sample : Nat) : EdgeEffect :=
  if sample = 0 then .nothing
  else if sample ≤ 7 then .lengthen
  else if sample = 8 then .phaseError
  else .shorten

/-- The effect of an edge at the present sample (R144 to R147). -/
def LineUnit.edgeEffect (l : LineUnit) : EdgeEffect :=
  if l.clock.sinceAdjust ≤ 16 then .nothing
  else if !l.clock.locked then .restart
  else if l.phaseShift then edgeWithShift l.clock.sample
  else edgeWithoutShift l.clock.sample

/-- The edge dealt with at its own sample, before the bit of that sample (R144). An on-time or ignored
edge changes no adjustment. A cell abandoned after its sample 8 has given its bit, and the attempt moves on.
DESIGN CHOICE (notes/assumptions/36.md): in the cell begun by an edge that abandons its cell at samples 1 to 8,
before that cell's bit was taken, the attempt drives the abandoned cell's bit again; the rules do not say
which bit of R154 it drives there. -/
def LineUnit.applyEdge (l : LineUnit) (e : EdgeEffect) : LineUnit :=
  let c := { l.clock with quietCells := 0, edgeInCell := true }
  match e with
  | .nothing => { l with clock := c }
  | .lengthen => { l with clock := { c with lengthen := true, sinceAdjust := 0 } }
  | .shorten => { l with clock := { c with shorten := true, sinceAdjust := 0 } }
  | .restart =>
    { l with
      clock := { c with locked := true, sample := 0, sinceAdjust := 0 }
      attempt :=
        l.attempt.map fun a =>
          { a with
            cells := if 9 ≤ l.clock.sample ∨ a.cells = 0 then a.cells + 1 else a.cells } }
  | .phaseError => { l with clock := { c with locked := false } }

/-- A bit taken by the framer with its event: the line is busy from the first 0, and free at the eighth 1
in IDLE after the last 0 or the bit that completed an abort (R150, R152). A frame opened in the station's
own attempt is its own (R158). -/
def LineUnit.hearBit (l : LineUnit) (b : Bool) : LineUnit × FramerEvent :=
  let r := l.framer.take l.attempt.isSome b
  let quiet := if b = true ∧ r.2 ≠ .aborted then satInc l.quietOnes 8 else 0
  ({ l with
      framer := r.1
      quietOnes := quiet
      free := b && (l.free || (!r.1.inFrame && decide (quiet = 8))) }, r.2)

end Sys2Proof.Machine
end

