-- ==== Sys2Proof/Machine/SafeStop.lean ====
section
/-!
DEFINITION. The safe stop logic (chapter 10): the halt snapshot (R177), the entry into SAFE (R174,
R175), arriving causes (R173, R178), the PFW silence (R179), the leaving of SAFE (R181, R182), and the
rows of the plant inputs ESTOP and PFW.
-/

namespace Sys2Proof.Machine

/-- A cause set with a cause joined (R178). -/
def CauseSet.with (cs : CauseSet) : Cause → CauseSet
  | .estop => { cs with estop := true }
  | .pfw => { cs with pfw := true }
  | .safeCmd => { cs with safeCmd := true }
  | .clash => { cs with clash := true }

/-- Whether a circuit state has counts of a step to show: not IDLE, WAIT_DROP or RUN_OUT (R177). -/
def CircuitState.hasCounts : CircuitState → Bool
  | .admitting => true
  | .running => true
  | .paused => true
  | .idle => false
  | .waitDrop => false
  | .runOut => false

/-- A circuit's part of the snapshot (R177). -/
def Circuit.snapshot (x : Circuit) : CircuitSnapshot where
  comp := x.comp
  step := x.step
  state := x.state
  dose := if x.state.hasCounts then x.rcd.dose else 0
  elapsed := if x.state.hasCounts then x.rcd.elapsed else 0
  good := if x.state.hasCounts then x.rcd.good else 0

/-- The halt snapshot as the blocks stand (R177). -/
def State.snapshot (s : State) (c : Cause) : Snapshot where
  cause := c
  time := s.ms
  left := s.bay
  a := s.circA.snapshot
  b := s.circB.snapshot
  fillComp := s.fill.comp
  fillState := s.fill.state
  fillVolume := s.fillVolume

/-- A circuit at the entry into SAFE (R175). -/
def circEnterSafe (c : Side) (s : State) : State :=
  match (s.circ c).state with
  | .admitting => enterPaused c s
  | .running => enterPaused c s
  | .idle => s
  | .waitDrop => s
  | .paused => s
  | .runOut => s

/-- PFW asserted with the bay in SAFE or entering it: from QUIET a LEAVE is requested (R179). -/
def silenceBegin (s : State) : State :=
  match s.safety.silence with
  | .quiet =>
    let s1 := handLeave true false s
    { s1 with safety := { s1.safety with silence := .leavePending } }
  | .leavePending => s
  | .silent => s

/-- Begins the LEAVE of R179 when the cause is PFW. -/
def silenceFor (c : Cause) (s : State) : State :=
  match c with
  | .pfw => silenceBegin s
  | .estop => s
  | .safeCmd => s
  | .clash => s

/-- Steps 1 and 2 of R174, with the causes set: the snapshot and the output override. -/
def captureSafe (c : Cause) (s : State) : State :=
  { s with
    safety :=
      { s.safety with
        causes := CauseSet.empty.with c
        first := some c
        snapshot := some (s.snapshot c)
        override := true } }

/-- Step 5 of R174: the bay state, with the LISTEN timer stopped. -/
def becomeSafe (s : State) : State :=
  { s with bay := .safe, adm := { s.adm with listen := none } }

/-- The entry into SAFE (R174). -/
def enterSafe (c : Cause) (s : State) : State :=
  let s1 := captureSafe c s
  let s2 := fillEnterSafe (circEnterSafe .b (circEnterSafe .a s1))
  let s3 := becomeSafe (zeroClaims s2)
  raise .safeEntered c.bit s.bay.code 0 (silenceFor c s3)

/-- A cause joins the set in SAFE (R178). -/
def joinCause (c : Cause) (s : State) : State :=
  silenceFor c { s with safety := { s.safety with causes := s.safety.causes.with c } }

/-- A cause arrives (R173). -/
def arriveCause (c : Cause) (s : State) : State :=
  match s.bay with
  | .listen => enterSafe c s
  | .live => enterSafe c s
  | .safe => joinCause c s
  | .setup => s
  | .resetting => s

/-- The LEAVE reported sent to the safe stop logic (R179). -/
def silenceLeaveSent (s : State) : State :=
  match s.safety.silence with
  | .leavePending =>
    if s.pins.pfw then
      { s with
        safety := { s.safety with silence := .silent }
        line := { s.line with hold := true } }
    else { s with safety := { s.safety with silence := .quiet } }
  | .quiet => s
  | .silent => s

/-- PFW deasserted (R179). -/
def silenceEnd (s : State) : State :=
  match s.safety.silence with
  | .silent =>
    { s with
      safety := { s.safety with silence := .quiet }
      line := { s.line with hold := false } }
  | .quiet => s
  | .leavePending => s

/-- The silence state QUIET and the hold clear, at RESUME and at either reset (R179). -/
def silenceReset (s : State) : State :=
  { s with
    safety := { s.safety with silence := .quiet }
    line := { s.line with hold := false } }

/-! ### Listening (R131) and leaving SAFE (R182) -/

/-- The entry into LISTEN, at GO and at RESUME: the roll call, the announcement timer at the first-slot
offset and the LISTEN timer (R128, R129, R131). -/
def enterListen (s : State) : State :=
  let s1 := handRollCall { s with bay := .listen }
  { s1 with
    adm := { s1.adm with announce := some s1.slotOffset, listen := some (3 * s1.cfg.period) } }

/-- The conditions that refuse RESUME, as the set of its detail: CLASH held, ESTOP asserted, PFW
asserted (R181). -/
def State.resumeRefusal (s : State) : Nat :=
  flagByte [(s.pins.estop, 1), (s.pins.pfw, 2), (s.safety.causes.clash, 8)]

/-- A paused step whose claim is IDLE enters RUN at RESUME (R48, R182). -/
def resumeCirc (c : Side) (s : State) : State :=
  if (s.circ c).state = .paused ∧ (s.claim (sideConsumer c)).state = .idle then enterRun c s else s

/-- Steps 1 and 2 of R182: causes, first cause, snapshot and override cleared, the silence QUIET. -/
def clearSafe (s : State) : State :=
  let s1 := silenceReset s
  { s1 with
    safety :=
      { s1.safety with causes := .empty, first := none, snapshot := none, override := false } }

/-- An accepted RESUME (R182). -/
def leaveSafe (s : State) : State :=
  let s1 := resumeCirc .b (resumeCirc .a (clearSafe s))
  enterListen (fillResume (raise .safeLeft 0 0 0 s1))

/-! ### Rows of ESTOP and PFW -/

/-- ESTOP_ASSERTED (R173). -/
def execEstopAsserted (s : State) : Host.Outcome State Fault Refusal :=
  .next (if s.pins.estop then s
    else arriveCause .estop { s with pins := { s.pins with estop := true } })

/-- ESTOP_DEASSERTED (R173, R181): the cause stays in the set. -/
def execEstopDeasserted (s : State) : Host.Outcome State Fault Refusal :=
  .next { s with pins := { s.pins with estop := false } }

/-- PFW_ASSERTED (R173, R179). -/
def execPfwAsserted (s : State) : Host.Outcome State Fault Refusal :=
  .next (if s.pins.pfw then s
    else arriveCause .pfw { s with pins := { s.pins with pfw := true } })

/-- PFW_DEASSERTED (R179). -/
def execPfwDeasserted (s : State) : Host.Outcome State Fault Refusal :=
  .next (silenceEnd { s with pins := { s.pins with pfw := false } })

end Sys2Proof.Machine
end

