-- ==== Sys2Proof/Machine/Admission.lean ====
section
/-!
DEFINITION. What the draw admission unit does at its events: shedding (R119, R121), DERATE (R104), the
announcement tick (R127), the settle window (R112 to R117) and the LISTEN timer (R131).
-/

namespace Sys2Proof.Machine

/-- The resource code of an event: 1 HEAT, 2 FLOW, 3 DRAIN (R32, R121). -/
def Quantity.code : Quantity → Nat
  | .heat => 1
  | .flow => 2
  | .drain => 3

/-- The claim code of a wash circuit's claim (R121). -/
def sideClaimCode : Side → Nat
  | .a => 1
  | .b => 2

/-- A circuit told that its claim is shed: a step in RUN enters PAUSED (R47, R121). -/
def circShed (c : Side) (s : State) : State :=
  if (s.circ c).state = .running then enterPaused c s else s

/-- The shed of the claim of circuit `c` for a resource (R121). -/
def shedClaim (c : Side) (q : Quantity) (s : State) : State :=
  let k := s.claim (sideConsumer c)
  let s1 := if k.state = .intent then dropIntent s else s
  let s2 := s1.setClaim (sideConsumer c) (k.afterShed s.adm.tick)
  circShed c (raise .claimShed (sideClaimCode c) q.code (s.circ c).comp s2)

/-- A shedding evaluation: only in LISTEN or LIVE with DERATE asserted (R119). -/
def shedEvaluation (s : State) : State :=
  if s.pins.derate = true ∧ (s.bay = .listen ∨ s.bay = .live) then
    match s.shedDecision with
    | some (c, q) => shedClaim c q s
    | none => s
  else s

/-- DERATE_ASSERTED (R104, R119). -/
def execDerateAsserted (s : State) : Host.Outcome State Fault Refusal :=
  .next (if s.pins.derate then s
    else
      let s1 := recomputeCapacities { s with pins := { s.pins with derate := true } }
      shedEvaluation (raise .derateOn s.cfg.heatPercent s.cfg.flowPercent 0 s1))

/-- DERATE_DEASSERTED (R104). -/
def execDerateDeasserted (s : State) : Host.Outcome State Fault Refusal :=
  .next (if s.pins.derate then
      raise .derateOff 0 0 0
        (recomputeCapacities { s with pins := { s.pins with derate := false } })
    else s)

/-- One own announcement tick, steps 1 to 4, with the timer's next expiry T_a later (R127). -/
def ownTick (s : State) : State :=
  let s1 :=
    { s with adm := { s.adm with tick := s.adm.tick + 1, announce := some s.cfg.period } }
  handAnnounce (formIntent (shedEvaluation s1))

/-- ANNOUNCEMENT_TICK (R127). -/
def execAnnouncementTick (s : State) : Host.Outcome State Fault Refusal :=
  .next (if timerRuns s.adm.announce then ownTick s else s)

/-- The consumer of a claim told of a grant (R106). -/
def grantConsumer (k : Consumer) (s : State) : State :=
  match k with
  | .a => grantCirc .a s
  | .b => grantCirc .b s
  | .fill => if s.fill.state = .admitting then enterAwaitSkid s else s

/-- The admission test of the claim in INTENT with its result (R112 to R117). -/
def admissionTest (s : State) : State :=
  match s.adm.intentClaim with
  | some k =>
    if s.testPasses k then grantConsumer k (commitClaim k s) else failClaim k s
  | none => dropIntent s

/-- SETTLE_WINDOW_EXPIRY (R112): on a DEGRADED line the intent is held with the window stopped. -/
def execSettleWindowExpiry (s : State) : Host.Outcome State Fault Refusal :=
  .next (if timerRuns s.adm.settle then
      if s.line.degraded then { s with adm := { s.adm with settle := none } }
      else admissionTest s
    else s)

/-- LISTEN_TIMER_EXPIRY (R131): the bay enters LIVE. -/
def execListenTimerExpiry (s : State) : Host.Outcome State Fault Refusal :=
  .next (if timerRuns s.adm.listen ∧ s.bay = .listen then
      { s with bay := .live, adm := { s.adm with listen := none } }
    else s)

/-- The sent report of an ANNOUNCE: the announced age noted and the settle window started when the
present intent was carried (R110, R111). -/
def announceSent (tag : Option IntentTag) (s : State) : State :=
  match tag, s.adm.intentClaim with
  | some t, some _ =>
    if t.number = s.adm.intentCount then
      { s with
        adm :=
          { s.adm with
            announcedAge := some t.age
            settle := startTimer s.adm.settle (2 * s.cfg.period) } }
    else s
  | _, _ => s

end Sys2Proof.Machine
end

