-- ==== Sys2Proof/Machine/Peers.lean ====
section
/-!
DEFINITION. The peer table (chapter 7): taking a frame (R134), creating, replacing, ageing and removing
entries (R135 to R139), the capacity set comparison (R137), the address clash (R140), the move of the
tick by a roll call (R130), and the rows of received frames and ages.
-/

namespace Sys2Proof.Machine

/-- The entry of an address, if its place is not empty (R133). -/
def State.peer? (s : State) (a : BitVec 4) : Option Peer :=
  s.peers.find? fun p => decide (p.address = a)

/-- The table with an entry put in its place, in ascending order of address (R133, R141). -/
def putPeer (p : Peer) : List Peer → List Peer
  | [] => [p]
  | q :: rest =>
    if q.address = p.address then p :: rest
    else if p.address.toNat < q.address.toNat then p :: q :: rest
    else q :: putPeer p rest

/-- The table without an address's entry. -/
def dropPeer (a : BitVec 4) (ps : List Peer) : List Peer :=
  ps.filter fun p => decide (p.address ≠ a)

/-- An intent fill line as taken: above 4 it is 0 (R134). -/
def takenLine (n : Nat) : Nat := if 4 < n then 0 else n

/-- The entry an ANNOUNCE gives, each field brought within its range, heard at `now` (R134, R135). -/
def entryOfReport (r : StationReport) (now : Count) (mismatchReported : Bool) : Peer where
  address := r.address
  stale := false
  heard := now
  bayCode := r.bayCode
  safeFlag := r.safeFlag
  leavingFlag := r.leavingFlag
  derateSeen := r.derateSeen
  capSet := r.capSet
  mismatch := false
  mismatchReported := mismatchReported
  committedHeat := min 4000 r.committedHeat.toNat
  committedFlow := min 2000 r.committedFlow.toNat
  committedDrain := min 3000 r.committedDrain.toNat
  heldLines := r.heldLines.setWidth 4
  intentHeat := min 4000 r.intentHeat.toNat
  intentFlow := min 2000 r.intentFlow.toNat
  intentDrain := min 3000 r.intentDrain.toNat
  intentLine := takenLine r.intentLine.toNat
  intentAge := r.intentAge.toNat
  newestAge := r.newestAge.toNat

/-- Whether an announced capacity set identifier differs from the own one (R137). -/
def State.mismatches (s : State) (id : Byte) : Bool := decide (id.toNat ≠ s.cfg.capSet)

/-- The entry with its MISMATCH flag and its reported mark after the comparison (R137). -/
def Peer.compared (p : Peer) (differs : Bool) : Peer :=
  { p with mismatch := differs, mismatchReported := p.mismatchReported || differs }

/-- Stores an entry with its identifier compared, raising CAPSET_MISMATCH at most once an entry
(R137). -/
def storePeer (p : Peer) (s : State) : State :=
  let differs := s.mismatches p.capSet
  let s1 := { s with peers := putPeer (p.compared differs) s.peers }
  if differs && !p.mismatchReported then
    raise .capSetMismatch p.address.toNat p.capSet.toNat s.cfg.capSet s1
  else s1

/-- An ANNOUNCE from another address: creates or replaces its entry (R135, R136). -/
def takeAnnounce (r : StationReport) (s : State) : State :=
  match s.peer? r.address with
  | some p => storePeer (entryOfReport r s.ms p.mismatchReported) s
  | none =>
    raise .peerJoined r.address.toNat r.capSet.toNat 0 (storePeer (entryOfReport r s.ms false) s)

/-- A LEAVE from another address removes its entry (R139). -/
def takeLeave (a : BitVec 4) (s : State) : State :=
  match s.peer? a with
  | some _ => raise .peerLeft a.toNat 0 0 { s with peers := dropPeer a s.peers }
  | none => s

/-- The tick moved to the candidate when that is earlier (R130). -/
def moveTick (s : State) : State :=
  match s.adm.announce with
  | some left =>
    if s.slotOffset < left then { s with adm := { s.adm with announce := some s.slotOffset } }
    else s
  | none => s

/-- A ROLL_CALL from another address: the tick may move, and an entry takes the identifier (R130,
R137). -/
def takeRollCall (a : BitVec 4) (id : Byte) (s : State) : State :=
  let s1 := moveTick s
  match s1.peer? a with
  | some p => storePeer { p with capSet := id } s1
  | none => s1

/-- A foreign frame taken by the table, first tested on its address (R134, R140). -/
def takeFrame (a : BitVec 4) (effect : State → State) (s : State) : State :=
  if s.bay.working = false then s
  else if a = 0 then s
  else if s.ownAddr = some a then arriveCause .clash s
  else effect s

/-- Whether the yard line unit runs: everywhere but in SETUP (R143). -/
def State.lineRuns (s : State) : Bool := decide (s.bay ≠ .setup)

/-- A good foreign frame at its closing flag (R151): the framer returns to IDLE, the table takes the
frame, then its good outcome is entered (R159; order: notes/assumptions/16.md). A frame marked own is
not handed (R158). -/
def receiveFrame (a : BitVec 4) (effect : State → State) (s : State) : State :=
  if s.lineRuns && !s.line.framer.own then
    enterOutcome false .none (takeFrame a effect { s with line := s.line.atFlag })
  else s

/-- ANNOUNCE_RECEIVED (R134 to R137, R140). -/
def execAnnounceReceived (r : StationReport) (s : State) : Host.Outcome State Fault Refusal :=
  .next (receiveFrame r.address (takeAnnounce r) s)

/-- LEAVE_RECEIVED (R134, R139, R140). -/
def execLeaveReceived (r : StationReport) (s : State) : Host.Outcome State Fault Refusal :=
  .next (receiveFrame r.address (takeLeave r.address) s)

/-- ROLL_CALL_RECEIVED (R130, R134, R140). -/
def execRollCallReceived (a : BitVec 4) (id : Byte) (s : State) :
    Host.Outcome State Fault Refusal :=
  .next (receiveFrame a (takeRollCall a id) s)

/-- The age of an entry in ms (R138). -/
def State.peerAge (s : State) (p : Peer) : Nat := (s.ms - p.heard).toNat

/-- Whether an entry has passed 8·T_a without being heard (R138). -/
def State.peerGone (s : State) (p : Peer) : Bool := decide (8 * s.cfg.period < s.peerAge p)

/-- Whether a PRESENT entry has passed 3·T_a without being heard (R138). -/
def State.peerSilent (s : State) (p : Peer) : Bool :=
  decide (3 * s.cfg.period < s.peerAge p) && !p.stale

/-- PEER_AGE_STALE (R138): a PRESENT entry past 3·T_a becomes STALE. -/
def execPeerAgeStale (a : BitVec 4) (s : State) : Host.Outcome State Fault Refusal :=
  .next (match s.peer? a with
    | some p =>
      if s.bay.working && s.peerSilent p then
        raise .peerStale a.toNat 0 0 { s with peers := putPeer { p with stale := true } s.peers }
      else s
    | none => s)

/-- PEER_AGE_GONE (R138): an entry past 8·T_a is removed. -/
def execPeerAgeGone (a : BitVec 4) (s : State) : Host.Outcome State Fault Refusal :=
  .next (match s.peer? a with
    | some p =>
      if s.bay.working && s.peerGone p then
        raise .peerGone a.toNat 0 0 { s with peers := dropPeer a s.peers }
      else s
    | none => s)

end Sys2Proof.Machine
end

