-- ==== Sys2Proof/Machine/Resets.lean ====
section
/-!
DEFINITION. The two resets: the soft reset sequence (R27, R195, R196) with the leave timer's row, and
the power-on reset (R197).
-/

namespace Sys2Proof.Machine

/-! ### The job store at the entry to RESETTING (R27) -/

/-- The entry list of a circuit handed to its compartment, when it serves one (R27, R165). -/
def handAtReset (c : Side) (s : State) : State :=
  if (s.circ c).comp = 0 then s else handEntries c s

/-- The fill entry of a fill in progress that asserted DEMAND, its outcome by volume (R27). -/
def closeFillAtReset (s : State) : State :=
  if s.fill.comp = 0 then s else closeFillEntry s.volumeResult s

/-- Compartment `i` ended ABORTED(RESET) with its record, unless terminal (R27). -/
def resetComp (i : Nat) (s : State) : State :=
  match s.comp? i with
  | some c =>
    if c.state.terminal then s else handCert i (s.modComp i (Comp.ended .aborted .reset))
  | none => s

/-- The compartments from number `i` on, `todo` of them, ended in order (R27). -/
def resetComps : Nat → Nat → State → State
  | 0, _, s => s
  | todo + 1, i, s => resetComps todo (i + 1) (resetComp i s)

/-- The job store's part of the entry to RESETTING, cleared at once (R27, notes/assumptions/21.md). -/
def resetJobs (s : State) : State :=
  let s1 := closeFillAtReset (handAtReset .b (handAtReset .a s))
  let s2 := resetComps s1.comps.length 1 s1
  { s2 with jobs := .reset }

/-- The circuits, the fill controller and the admission unit stopped (R195 step 5, R51, R102, R126):
selectors, trails and effective capacities stay. -/
def stopWork (s : State) : State :=
  { s with
    circA := .reset s.circA.dropSel
    circB := .reset s.circB.dropSel
    fill := .reset s.fill.trails s.fill.dropSel
    adm := Admission.reset.withCapacities s.cfg s.pins.derate }

/-! ### The sequence (R195, R196) -/

/-- The bay after a soft reset (R196): every block at its soft reset values, what each rule keeps kept. -/
def endSoftReset (s : State) : State :=
  { s with
    bay := .setup
    ms := 0
    ownAddr := none
    sticky := .clear
    jobs := .reset
    circA := .reset s.circA.dropSel
    circB := .reset s.circB.dropSel
    fill := .reset s.fill.trails s.fill.dropSel
    adm := Admission.reset.withCapacities s.cfg s.pins.derate
    peers := []
    line := .reset
    certs := { s.certs with reservedRecords := 0, reservedBytes := 0 }
    safety := .reset
    leaveTimer := none
    events := ⟨[], false⟩ }

/-- Steps 1 to 3 of R195: RESETTING, the override, the event queue cleared. The causes and the snapshot
are gone with SAFE (R173, R177). -/
def enterResetting (s : State) : State :=
  { s with
    bay := .resetting
    safety := { SafeStop.reset with override := true }
    events := ⟨[], false⟩ }

/-- Step 7 of R195: the LEAVE requested, the roll-call mark cleared, the leave timer started. -/
def requestResetLeave (s : State) : State :=
  let s1 := handLeave false true s
  { s1 with
    line := { s1.line with rollCall := none }
    leaveTimer := startTimer s1.leaveTimer (2 * s1.cfg.period) }

/-- The soft reset sequence from an accepted RESET (R195). -/
def softReset (s : State) : State :=
  let s1 := silenceReset (stopWork (resetJobs (enterResetting s)))
  if s.bay.working then requestResetLeave s1 else endSoftReset s1

/-- LEAVE_TIMER_EXPIRY (R196). -/
def execLeaveTimerExpiry (s : State) : Host.Outcome State Fault Refusal :=
  .next (if timerRuns s.leaveTimer ∧ s.bay = .resetting then endSoftReset s else s)

/-! ### Power-on reset (R197) -/

/-- An exchange cut by RESETN: one in progress is not taken, and nothing is shifted out (R197). -/
def Port.cut (p : Port) : Port :=
  { p with exchange := if p.exchange = .none then .none else .notTaken, shiftOut := none }

/-- The assertion of RESETN (R197): from here on the outputs are held and SELN is ignored
(Machine/Outputs.lean, selectPort). -/
def assertResetn (s : State) : State :=
  { s with pins := { s.pins with resetn := true }, port := s.port.cut }

/-- The deassertion of RESETN (R197): every block takes its power-on values; the other input pins are the
outside's, and the commands waiting stay (notes/assumptions/11.md). -/
def releaseResetn (s : State) : State :=
  { State.reset with
    pins := { s.pins with resetn := false }
    port := { Port.reset with exchange := s.port.cut.exchange }
    tie := s.tie
    drawn := s.drawn
    pending := s.pending }

/-- POWER_ON_RESET (R197): RESETN asserted and then deasserted, with no command taken in between
(notes/assumptions/34.md). -/
def execPowerOnReset (s : State) : Host.Outcome State Fault Refusal :=
  .next (releaseResetn (assertResetn s))

end Sys2Proof.Machine
end

