-- ==== Sys2Proof/Machine/Samples.lean ====
section
/-!
DEFINITION. The yard line by samples (chapter 8): the ends of an own attempt (R155 to R157), a bit with
all it brings about (R150 to R152, R155 to R159), the samples that pass with the line at one level, and
a level change (R144 to R147). The samples run on in the rows of the line alone, not with the milliseconds
(notes/assumptions/13.md).
-/

namespace Sys2Proof.Machine

/-! ### The ends of an own attempt -/

/-- The framer when the own mark is cleared (R158). -/
def Framer.notOwn (f : Framer) (bitError : Bool) : Framer :=
  { f with own := false, afterBitError := bitError && f.inFrame && f.own }

/-- Lost arbitration (R155, R158). -/
def loseArbitration (s : State) : State :=
  let l := s.line.endFailed .lost
  { s with line := { l with framer := l.framer.notOwn false } }

/-- A bit error (R156, R158). -/
def failAttempt (s : State) : State :=
  let l := s.line.endFailed .bitError
  enterOutcome true .bitError
    (flagBadFrame { s with line := { l with framer := l.framer.notOwn true } })

/-- The LEAVE's requesters since it became pending: the safe stop logic and the soft reset sequence
(R157). -/
def PendingFrame.requesters : PendingFrame → Bool × Bool
  | .leave _ a b _ => (a, b)
  | .empty => (false, false)
  | .announce _ _ _ => (false, false)

/-- The sent report of a LEAVE to each of its requesters (R157, R179, R196). -/
def leaveSent (who : Bool × Bool) (s : State) : State :=
  let s1 := if who.1 then silenceLeaveSent s else s
  if who.2 = true ∧ s1.bay = .resetting then endSoftReset s1 else s1

/-- The sent report by frame (R157). An admission unit already cleared takes none (R162). -/
def reportSent (f : SentFrame) (who : Bool × Bool) (s : State) : State :=
  match f with
  | .leave => leaveSent who s
  | .rollCall => s
  | .announce tag => announceSent tag s

/-- An attempt ends SENT, with its report (R157). -/
def sendDone (a : Attempt) (s : State) : State :=
  reportSent a.frame s.line.pendingFrame.requesters
    { s with line := s.line.endSent a.frame }

/-! ### One bit -/

/-- A good foreign frame handed to the peer table by its class (R148, R151). -/
def handFrame (content : List Byte) (s : State) : State :=
  let r := reportOf content
  match byteAt content 0 / 16 with
  | 0 => takeFrame r.address (takeLeave r.address) s
  | 1 => takeFrame r.address (takeAnnounce r) s
  | 2 => takeFrame r.address (takeRollCall r.address (content.getD 1 0)) s
  | _ => s

/-- A closing flag: the frame is checked, and discarded, or handed with a good outcome (R151, R159); an own
frame is neither (R158). `f` is the framer before the flag's last bit. -/
def closeFrame (f : Framer) (bits : List Bool) (s : State) : State :=
  if f.own then s
  else
    match checkFrame bits with
    | some reason => noteDiscard f reason s
    | none =>
      enterOutcome false .none (handFrame (contentOf (bits.take (bits.length - 16))) s)

/-- What the framer's event brings about (R150, R151). -/
def frameEffect (f : Framer) (e : FramerEvent) (s : State) : State :=
  match e with
  | .nothing => s
  | .opened => s
  | .closed bits => closeFrame f bits s
  | .aborted => noteDiscard f .aborted s
  | .long => noteDiscard f .long s

/-- The readback of a bit taken in a cell of the own attempt (R155 to R157). -/
def readBack (b : Bool) (s : State) : State :=
  match s.line.attempt with
  | some a =>
    match a.cells with
    | 0 => s
    | k + 1 =>
      if (lineBits a.content).getD k true = b then
        if k + 1 = (lineBits a.content).length then sendDone a s else s
      else if losesAt a.content k then loseArbitration s
      else failAttempt s
  | none => s

/-- A bit taken at sample 8 of a cell (R144): by the framer and the line, then by the transmitter. -/
def takeBit (b : Bool) (s : State) : State :=
  let r := s.line.hearBit b
  readBack b (frameEffect s.line.framer r.2 { s with line := r.1 })

/-! ### Samples -/

/-- One sample at which the line keeps its level (R144). -/
def quietSample (s : State) : State :=
  if s.lineRuns then
    let s1 := { s with line := s.line.advance }
    if s.line.clock.bitNext then takeBit s.pins.yls s1 else s1
  else s

/-- `n` samples at which the line keeps its level. -/
def quietSamples : Nat → State → State
  | 0, s => s
  | n + 1, s => quietSamples n (quietSample s)

/-- Samples at which the line keeps its level, until one of them, of at most `n`, meets `p`, told the state
before and the state after it. -/
def quietUntil (p : State → State → Bool) : Nat → State → Option State
  | 0, _ => none
  | n + 1, s => if p s (quietSample s) then some (quietSample s) else quietUntil p n (quietSample s)

/-- More samples than any event waits for while the line keeps its level: 32 cells to UNLOCKED, fifteen 1s
to a free line, 209 bits to a LONG frame (R144, R150, R152). -/
def lineHorizon : Nat := 4096

/-- The state once an event has come with the line at its level; unchanged when it does not come. -/
def runUntil (p : State → State → Bool) (s : State) : State := (quietUntil p lineHorizon s).getD s

/-- Samples at which the line keeps its level, up to the last one of a cell. -/
def toCellEnd : Nat → State → State
  | 0, s => s
  | n + 1, s => if s.line.clock.cellNext then s else toCellEnd n (quietSample s)

/-- What a level change at the next sample does to clock recovery (R144 to R147). -/
def State.nextEdgeEffect (s : State) : EdgeEffect := s.line.advance.edgeEffect

/-- Whether a level change at the next sample is a phase error that discards a frame (R146, R158). -/
def State.nextEdgeDiscards (s : State) : Bool :=
  s.lineRuns && decide (s.nextEdgeEffect = .phaseError) && s.line.framer.inFrame &&
  !s.line.framer.own

/-- The line's part of a level change of YLS at the next sample: the edge, then the bit of that sample
(R144, R146). -/
def lineEdge (s : State) : State :=
  let l := s.line.advance.applyEdge s.nextEdgeEffect
  let s1 := { s with line := l }
  let s2 := if s.nextEdgeDiscards then discardFrame .sync s1 else s1
  if l.clock.sample = 8 ∧ s.line.clock.sample ≠ 8 then takeBit (!s.pins.yls) s2 else s2

/-- A level change of YLS at the next sample; in SETUP the line is not sampled and only the pin changes
(R143). DESIGN CHOICE (notes/assumptions/37.md): the level that stands before the first sample after GO is the
pin's level at GO, since R144 defines an edge by the previous sample and SETUP takes none; a line dominant at
GO gives no edge at that sample. -/
def edgeNow (s : State) : State :=
  let s1 := if s.lineRuns then lineEdge s else s
  { s1 with pins := { s1.pins with yls := !s1.pins.yls } }

end Sys2Proof.Machine
end

