-- ==== Sys2Proof/Machine/LineRows.lean ====
section
/-!
DEFINITION. The rows of the yard line unit (chapter 8): clock recovery, framer and line (R144 to R152),
attempts and their outcomes (R154 to R157), discards (R151). In SETUP none has an effect (R143). A row
that names an event of the framer, the line or the clock lets samples pass, the line at its level, until
that event comes (notes/assumptions/33.md).
-/

namespace Sys2Proof.Machine

/-! ### Clock recovery, framer and line -/

/-- YLS_EDGE (R144 to R147): `n` sample periods after the last sample taken. -/
def execYlsEdge (n : Nat) (s : State) : Host.Outcome State Fault Refusal :=
  .next (edgeNow (quietSamples (n - 1) s))

/-- The unit becomes UNLOCKED. -/
def losesLock (s t : State) : Bool := s.line.clock.locked && !t.line.clock.locked

/-- CLOCK_UNLOCKED (R144): the count of cells without an edge reaches 32. -/
def execClockUnlocked (s : State) : Host.Outcome State Fault Refusal :=
  .next (runUntil losesLock s)

/-- The framer enters IN_FRAME. -/
def opensFrame (s t : State) : Bool := !s.line.framer.inFrame && t.line.framer.inFrame

/-- FRAME_OPENED (R150, R158). -/
def execFrameOpened (s : State) : Host.Outcome State Fault Refusal :=
  .next (runUntil opensFrame s)

/-- The line becomes free. -/
def freesLine (s t : State) : Bool := !s.line.free && t.line.free

/-- LINE_FREE (R152). -/
def execLineFree (s : State) : Host.Outcome State Fault Refusal := .next (runUntil freesLine s)

/-- The line becomes busy. -/
def busiesLine (s t : State) : Bool := s.line.free && !t.line.free

/-- LINE_BUSY (R152). -/
def execLineBusy (s : State) : Host.Outcome State Fault Refusal := .next (runUntil busiesLine s)

/-- Whether a framer event is the discard of a frame not marked own (R151). -/
def FramerEvent.discards (e : FramerEvent) (own : Bool) : Bool :=
  match e with
  | .nothing => false
  | .opened => false
  | .closed bits => !own && (checkFrame bits).isSome
  | .aborted => !own
  | .long => !own

/-- The next sample brings the bit that discards the frame in reception. -/
def discardsNext (s _ : State) : Bool :=
  s.lineRuns && s.line.clock.bitNext &&
  (s.line.hearBit s.pins.yls).2.discards s.line.framer.own

/-- The discard of the frame in reception, as it comes about (R150, R151); no effect with no foreign frame in
reception. -/
def discardBy (e : FrameEnd) (s : State) : State :=
  if s.line.framer.inFrame && !s.line.framer.own then
    match e with
    | .unchanged => runUntil discardsNext s
    | .phaseError n =>
      if (quietSamples (n - 1) s).nextEdgeDiscards then edgeNow (quietSamples (n - 1) s) else s
  else s

/-- FRAME_DISCARD (R151). -/
def execFrameDiscard (e : FrameEnd) (s : State) : Host.Outcome State Fault Refusal :=
  .next (discardBy e s)

/-! ### Attempts -/

/-- Whether an attempt may start: something pending, none in progress, the hold clear, the line free
(R154). -/
def State.mayAttempt (s : State) : Bool :=
  s.lineRuns && s.line.somethingPending && s.line.attempt.isNone && !s.line.hold && s.line.free

/-- The state in which an attempt begins: the present one at the first sample of a cell, be it begun by an
edge (R144) or not, else the one before the next beginning of a cell, the line at its level. -/
def beforeCell (s : State) : State := if s.line.atCellStart then s else toCellEnd 32 s

/-- ATTEMPT_START (R153, R154): the attempt begins with the cell that begins now, else with the next one. -/
def execAttemptStart (s : State) : Host.Outcome State Fault Refusal :=
  .next (if (beforeCell s).mayAttempt then
      { beforeCell s with line := (beforeCell s).line.startAttempt }
    else s)

/-- LOST_ARBITRATION at bit `k` of the attempt (R155): no effect at a bit that cannot lose it
(notes/assumptions/29.md). -/
def execLostArbitration (k : Nat) (s : State) : Host.Outcome State Fault Refusal :=
  .next (match s.line.attempt with
    | some a => if losesAt a.content k then loseArbitration s else s
    | none => s)

/-- BIT_ERROR at bit `k` of the attempt (R156): no effect at a bit of R155. -/
def execBitError (k : Nat) (s : State) : Host.Outcome State Fault Refusal :=
  .next (match s.line.attempt with
    | some a => if errsAt a.content k then failAttempt s else s
    | none => s)

/-- FRAME_SENT (R157). -/
def execFrameSent (s : State) : Host.Outcome State Fault Refusal :=
  .next (match s.line.attempt with
    | some a => sendDone a s
    | none => s)

end Sys2Proof.Machine
end

