-- ==== Sys2Proof/Machine/Port.lean ====
section
/-!
DEFINITION. The bay port's exchange (chapter 11.1): its start (R185, R187), the request taken at its end
with the cases of R186, the accepting states (R188), and the rows EXCHANGE_START, PREPARATION_DONE,
UNKNOWN_COMMAND and NOP.
-/

namespace Sys2Proof.Machine

/-- What executing a command gives: the state and the response to prepare (R188). -/
structure Answer where
  state : State
  response : Response
  deriving DecidableEq, Repr

/-- The port exchange state (R187). -/
inductive PortState where
  | idle
  | exchange
  | preparing
  deriving DecidableEq, Repr

/-- The port exchange state of R187: PREPARING while a response is prepared, EXCHANGE while one is
shifted out. When preparation ends while an exchange begun in PREPARING still runs, the state reads IDLE
(DESIGN CHOICE, notes/assumptions/35.md). -/
def State.portState (s : State) : PortState :=
  if s.port.preparing then .preparing
  else if s.port.exchange = .answering then .exchange
  else .idle

/-- A response of a status and a body. -/
def respond (st : Status) (body : List Byte) (s : State) : Answer := ⟨s, ⟨st, body⟩⟩

/-- The port at the assertion of SELN (R185, R187). -/
def Port.select (p : Port) : Port :=
  if p.preparing then { p with exchange := .notReady, shiftOut := some ⟨.notReady, []⟩ }
  else { p with exchange := .answering, shiftOut := some p.prepared }

/-- The assertion of SELN; with RESETN asserted it is ignored, and its exchange is not taken (R197). -/
def selectPort (s : State) : State :=
  { s with port := if s.pins.resetn then { s.port with exchange := .notTaken } else s.port.select }

/-- Whether an exchange of the part is in progress; one cut by a power-on reset is not (R197). -/
def Port.selected (p : Port) : Bool :=
  decide (p.exchange = .answering) || decide (p.exchange = .notReady)

/-- EXCHANGE_START (R185, R187). -/
def execExchangeStart (s : State) : Host.Outcome State Fault Refusal :=
  .next (if s.port.selected then s else selectPort s)

/-- PREPARATION_DONE (R187). -/
def execPreparationDone (s : State) : Host.Outcome State Fault Refusal :=
  .next { s with port := { s.port with preparing := false } }

/-! ### SDI (R185) -/

/-- A byte from its bits, the MSB first (R185). -/
def byteHighFirst (bits : List Bool) : Byte := BitVec.ofNat 8 (byteOfBits bits.reverse)

/-- The whole bytes among the bits sampled from SDI at the rising edges of SCK, `n` of them. -/
def bytesHighFirst : Nat → List Bool → List Byte
  | 0, _ => []
  | n + 1, bits => byteHighFirst (bits.take 8) :: bytesHighFirst n (bits.drop 8)

/-- The command byte and the rest of the request that the bits sampled from SDI in an exchange carry; none
when no byte was clocked. Bits short of a byte at the end are dropped (DESIGN CHOICE,
notes/assumptions/24.md). -/
def requestOfSdi (bits : List Bool) : Option (Byte × Request) :=
  match bytesHighFirst (bits.length / 8) bits with
  | [] => none
  | [command] => some (command, ⟨none, []⟩)
  | command :: len :: data => some (command, ⟨some len, data⟩)

/-! ### The request taken at the end of an exchange (R186, R188) -/

/-- The states in which a command is executed (R188, table). -/
inductive Accepts where
  /-- SETUP, LISTEN, LIVE and SAFE. -/
  | always
  /-- SETUP alone. -/
  | inSetup
  /-- LISTEN, LIVE and SAFE. -/
  | inYard
  /-- LISTEN and LIVE. -/
  | notStopped
  /-- SAFE alone. -/
  | stopped
  deriving DecidableEq, Repr

/-- Whether a command is executed in a bay state (R188). -/
def Accepts.accepts (a : Accepts) (b : BayState) : Bool :=
  match a with
  | .always => decide (b ≠ .resetting)
  | .inSetup => decide (b = .setup)
  | .inYard => b.working
  | .notStopped => decide (b = .listen) || decide (b = .live)
  | .stopped => decide (b = .safe)

/-- The port at the end of an exchange whose request has its response prepared (R185, R187). -/
def Port.answered (p : Port) (r : Response) : Port :=
  { p with exchange := .none, preparing := true, prepared := r, shiftOut := none }

/-- The port at the end of an exchange that carried no executed request (R186 case 1, R187). -/
def Port.released (p : Port) : Port := { p with exchange := .none, shiftOut := none }

/-- A request is truncated: only the command byte, or fewer than L body bytes (R186 case 3). -/
def Request.truncated (r : Request) : Bool :=
  match r.len with
  | some l => decide (r.data.length < l.toNat)
  | none => true

/-- The body length L of a request, 0 when it was not clocked. -/
def Request.bodyLength (r : Request) : Nat :=
  match r.len with
  | some l => l.toNat
  | none => 0

/-- The body of a request: bytes beyond L are ignored (R186). -/
def Request.body (r : Request) : List Byte := r.data.take (Request.bodyLength r)

/-- The cases 2 to 4 of R186, decided before the command byte is looked at. -/
def structureFault (r : Request) (s : State) : Option Response :=
  if s.bay = .resetting then some ⟨.resetting, []⟩
  else if Request.truncated r then some ⟨.badArg, put1 254⟩
  else if 250 < Request.bodyLength r then some ⟨.badArg, put1 253⟩
  else none

/-- The answer to a request of a known command (R186, R188). -/
def answerCommand (acc : Accepts) (command : List Byte → State → Answer) (r : Request) (s : State) :
    Answer :=
  match structureFault r s with
  | some resp => ⟨s, resp⟩
  | none =>
    if acc.accepts s.bay then command (Request.body r) s
    else respond .refusedState (put1 255 ++ put1 s.bay.code) s

/-- The state at the assertion of SELN of the exchange that a request row ends: the exchange in
progress, or, with SELN deasserted, a whole exchange begun now (notes/assumptions/4.md). -/
def beginExchange (s : State) : State :=
  if s.port.exchange = .none then selectPort s else s

/-- The end of an exchange that carried a request (R186, R187): executed only when the exchange began
with the port ready. -/
def endExchange (answer : State → Answer) (s : State) : State :=
  let s1 := beginExchange s
  match s1.port.exchange with
  | .answering =>
    let a := answer s1
    { a.state with port := a.state.port.answered a.response }
  | .none => { s1 with port := s1.port.released }
  | .notReady => { s1 with port := s1.port.released }
  | .notTaken => { s1 with port := s1.port.released }

/-- An exchange that carried a request of a known command. -/
def hostRequest (acc : Accepts) (command : List Byte → State → Answer) (r : Request) (s : State) :
    State :=
  endExchange (answerCommand acc command r) s

/-- The answer to a request whose command byte names no command (R186 case 5). -/
def answerUnknown (r : Request) (s : State) : Answer :=
  match structureFault r s with
  | some resp => ⟨s, resp⟩
  | none => respond .unknown [] s

/-- UNKNOWN_COMMAND (R186): `none` is an exchange in which no byte was clocked, which carries no request
(case 1). -/
def execUnknownCommand (r : Option Request) (s : State) : Host.Outcome State Fault Refusal :=
  .next (match r with
    | some q => endExchange (answerUnknown q) s
    | none =>
      let s1 := beginExchange s
      { s1 with port := s1.port.released })

/-- The NOP command (R187). -/
def cmdNop (_ : List Byte) (s : State) : Answer := respond .ok [] s

/-- NOP (R187). -/
def execNop (r : Request) (s : State) : Host.Outcome State Fault Refusal :=
  .next (hostRequest .always cmdNop r s)

end Sys2Proof.Machine
end

