-- ==== Sys2Proof/Machine/Setup.lean ====
section
/-!
DEFINITION. The commands of SETUP: CONFIGURE (R190), WRITE_WEIGHTS (R60), WRITE_RECIPE (R30),
WRITE_MATRIX (R31) and GO (R32, R191).
-/

namespace Sys2Proof.Machine

/-- CONFIGURE with its body (R190). -/
def cmdConfigure (body : List Byte) (s : State) : Answer :=
  if body.length ≠ 30 then respond .badArg (put1 1) s
  else
    let asked := configAt body
    let stored := asked.clamped
    let s1 := recomputeCapacities { s with config := some stored }
    respond (if stored = asked then .ok else .clamped) stored.bytes s1

/-- CONFIGURE (R190). -/
def execConfigure (r : Request) (s : State) : Host.Outcome State Fault Refusal :=
  .next (hostRequest .inSetup cmdConfigure r s)

/-- WRITE_WEIGHTS with its body (R60). -/
def cmdWriteWeights (body : List Byte) (s : State) : Answer :=
  match checkWeights body with
  | .error code => respond .badArg (put1 code) s
  | .ok (curve, weights) =>
    respond .ok []
      { s with store := { s.store with curves := s.store.curves.set curve weights } }

/-- WRITE_WEIGHTS (R60). -/
def execWriteWeights (r : Request) (s : State) : Host.Outcome State Fault Refusal :=
  .next (hostRequest .inSetup cmdWriteWeights r s)

/-- WRITE_RECIPE with its body (R30). -/
def cmdWriteRecipe (body : List Byte) (s : State) : Answer :=
  match checkRecipe body with
  | .error (step, code) => respond .badArg (put1 step ++ put1 code) s
  | .ok (index, recipe) =>
    respond .ok []
      { s with store := { s.store with recipes := s.store.recipes.set index (some recipe) } }

/-- WRITE_RECIPE (R30). -/
def execWriteRecipe (r : Request) (s : State) : Host.Outcome State Fault Refusal :=
  .next (hostRequest .inSetup cmdWriteRecipe r s)

/-- WRITE_MATRIX with its body (R31). -/
def cmdWriteMatrix (body : List Byte) (s : State) : Answer :=
  match checkMatrix body with
  | .error (named, code) => respond .badArg (put1 named ++ put1 code) s
  | .ok (prior, row) =>
    respond .ok [] { s with store := { s.store with matrix := s.store.matrix.set prior row } }

/-- WRITE_MATRIX (R31). -/
def execWriteMatrix (r : Request) (s : State) : Host.Outcome State Fault Refusal :=
  .next (hostRequest .inSetup cmdWriteMatrix r s)

/-! ### GO -/

/-- The first resource in which a step exceeds a configured capacity (R32). -/
def stepExcess (c : Configuration) (st : Step) : Option Quantity :=
  if c.capHeat < st.heat then some .heat
  else if c.capFlow < st.flow then some .flow
  else if c.capDrain < st.drain then some .drain
  else none

/-- The first step, from number `i` on, that exceeds a capacity (R32). -/
def stepsExcess (c : Configuration) (i : Nat) : List Step → Option (Nat × Quantity)
  | [] => none
  | st :: rest =>
    match stepExcess c st with
    | some q => some (i, q)
    | none => stepsExcess c (i + 1) rest

/-- The first recipe, from index `r` on, with a step that exceeds a capacity (R32). -/
def recipesExcess (c : Configuration) (r : Nat) :
    List (Option Recipe) → Option (Nat × Nat × Quantity)
  | [] => none
  | none :: rest => recipesExcess c (r + 1) rest
  | some x :: rest =>
    match stepsExcess c 1 x.steps with
    | some (i, q) => some (r, i, q)
    | none => recipesExcess c (r + 1) rest

/-- The checks of GO in order, on a level of ADDR[3:0] (R191): the refusing response, if any. -/
def goRefusal (addr : BitVec 4) (s : State) : Option Response :=
  match s.config with
  | none => some ⟨.refusedState, put1 1⟩
  | some c =>
    if addr = 0 then some ⟨.refusedState, put1 2⟩
    else
      match recipesExcess c 0 s.store.recipes with
      | some (r, i, q) => some ⟨.badArg, put1 r ++ put1 i ++ put1 q.code⟩
      | none => none

/-- The yard line unit as it starts at GO (R143, R162). -/
def LineUnit.start (c : Configuration) : LineUnit :=
  { LineUnit.reset with
    rate125 := decide (c.bitRate ≠ 0)
    phaseShift := decide (c.phaseShift ≠ 0) }

/-- An input asserted at the entry into LISTEN at GO, taken as arriving (R173). -/
def arriveIf (level : Bool) (c : Cause) (s : State) : State := if level then arriveCause c s else s

/-- Steps 1 to 4 of an accepted GO (R191). -/
def startBay (addr : BitVec 4) (s : State) : State :=
  enterListen
    { s with
      ownAddr := some addr
      ms := 0
      line := .start s.cfg
      adm := { s.adm with tick := 0 } }

/-- Step 5 of an accepted GO: ESTOP and PFW at their levels (R173, R191; order: log 16). -/
def takeLevels (s : State) : State :=
  arriveIf s.pins.pfw .pfw (arriveIf s.pins.estop .estop s)

/-- GO with the level of ADDR[3:0] (R191). -/
def cmdGo (addr : BitVec 4) (_ : List Byte) (s : State) : Answer :=
  match goRefusal addr s with
  | some resp => ⟨s, resp⟩
  | none => respond .ok (put1 addr.toNat) (takeLevels (startBay addr s))

/-- GO (R191). -/
def execGo (addr : BitVec 4) (r : Request) (s : State) : Host.Outcome State Fault Refusal :=
  .next (hostRequest .inSetup (cmdGo addr) r s)

end Sys2Proof.Machine
end

