-- ==== Sys2Proof/Machine/Jobs.lean ====
section
/-!
DEFINITION. The commands on jobs and on the bay's work: LOAD_JOB (R6), CANCEL_STAGED (R8), POSITION
(R11, R12), ABORT_COMP (R22), ABORT_JOB (R23), SAFE (R173), RESUME (R181), SET_TRAIL (R100), RESET
(R195) and REMOVE_CERT (R169).
-/

namespace Sys2Proof.Machine

/-- LOAD_JOB with its body (R6). -/
def cmdLoadJob (body : List Byte) (s : State) : Answer :=
  match s.jobs.staged with
  | some _ => respond .full [] s
  | none =>
    match checkJob s.store body with
    | .error (comp, code) => respond .badArg (put1 comp ++ put1 code) s
    | .ok job => respond .ok [] (tryPromote { s with jobs := { s.jobs with staged := some job } })

/-- LOAD_JOB (R6). -/
def execLoadJob (r : Request) (s : State) : Host.Outcome State Fault Refusal :=
  .next (hostRequest .inYard cmdLoadJob r s)

/-- CANCEL_STAGED (R8). -/
def cmdCancelStaged (_ : List Byte) (s : State) : Answer :=
  match s.jobs.staged with
  | some _ => respond .ok [] { s with jobs := { s.jobs with staged := none } }
  | none => respond .empty [] s

/-- CANCEL_STAGED (R8). -/
def execCancelStaged (r : Request) (s : State) : Host.Outcome State Fault Refusal :=
  .next (hostRequest .inYard cmdCancelStaged r s)

/-! ### POSITION -/

/-- Compartment `i` resolved on entry to RUNNING, when still QUEUED (R12). -/
def resolveComp (i : Nat) (s : State) : State :=
  match s.comp? i with
  | some c =>
    if c.state = .queued then
      match c.loaded.stored with
      | .absent => endComp i .skipped .none s
      | .noRecipe => if c.loaded.fillLine = 0 then endComp i .done .none s else joinFillWait i s
      | .recipe _ => s
    else s
  | none => s

/-- The compartments from number `i` on, `todo` of them, resolved in order while the job runs: the last
one to end may end it, and a job promoted then is left QUEUED (R10, R12). -/
def resolveComps : Nat → Nat → State → State
  | 0, _, s => s
  | todo + 1, i, s => if s.jobRunning then resolveComps todo (i + 1) (resolveComp i s) else s

/-- The active job enters RUNNING; the circuits and the fill controller take their first compartments
(R11, R12, R15, R16). -/
def positionJob (j : ActiveJob) (s : State) : State :=
  let s1 := { s with jobs := { s.jobs with active := some { j with running := true } } }
  fillTake (circTake .b (circTake .a (resolveComps j.comps.length 1 s1)))

/-- POSITION (R11). -/
def cmdPosition (_ : List Byte) (s : State) : Answer :=
  match s.jobs.active with
  | none => respond .refusedState (put1 0) s
  | some j =>
    if j.running then respond .refusedState (put1 2) s else respond .ok [] (positionJob j s)

/-- POSITION (R11). -/
def execPosition (r : Request) (s : State) : Host.Outcome State Fault Refusal :=
  .next (hostRequest .inYard cmdPosition r s)

/-! ### Aborts -/

/-- REFUSED_STATE of an abort with the ACTIVE slot EMPTY: one detail byte no rule gives (R22, R23, R188;
notes/assumptions/7.md). -/
def refuseAbort (s : State) : Answer :=
  respond .refusedState [Config.freeByte s.drawn] { s with drawn := s.drawn + 1 }

/-- ABORT_COMP with its body (R22). -/
def cmdAbortComp (body : List Byte) (s : State) : Answer :=
  let i := byteAt body 0
  if body.length ≠ 1 then respond .badArg [] s
  else
    match s.jobs.active with
    | none => refuseAbort s
    | some j =>
      if i = 0 ∨ j.comps.length < i then respond .badArg (put1 i) s
      else respond .ok [] (abortCompartment i true s)

/-- ABORT_COMP (R22). -/
def execAbortComp (r : Request) (s : State) : Host.Outcome State Fault Refusal :=
  .next (hostRequest .inYard cmdAbortComp r s)

/-- ABORT_JOB (R23). -/
def cmdAbortJob (_ : List Byte) (s : State) : Answer :=
  match s.jobs.active with
  | none => refuseAbort s
  | some _ => respond .ok [] (abortAll s)

/-- ABORT_JOB (R23). -/
def execAbortJob (r : Request) (s : State) : Host.Outcome State Fault Refusal :=
  .next (hostRequest .inYard cmdAbortJob r s)

/-! ### SAFE, RESUME, RESET -/

/-- The SAFE command (R173). -/
def cmdSafe (_ : List Byte) (s : State) : Answer := respond .ok [] (arriveCause .safeCmd s)

/-- SAFE (R173). -/
def execSafe (r : Request) (s : State) : Host.Outcome State Fault Refusal :=
  .next (hostRequest .notStopped cmdSafe r s)

/-- RESUME (R181, R182). -/
def cmdResume (_ : List Byte) (s : State) : Answer :=
  if s.resumeRefusal = 0 then respond .ok [] (leaveSafe s)
  else respond .refusedState (put1 s.resumeRefusal) s

/-- RESUME (R181). -/
def execResume (r : Request) (s : State) : Host.Outcome State Fault Refusal :=
  .next (hostRequest .stopped cmdResume r s)

/-- The RESET command (R195). -/
def cmdReset (_ : List Byte) (s : State) : Answer := respond .ok [] (softReset s)

/-- RESET (R195). -/
def execReset (r : Request) (s : State) : Host.Outcome State Fault Refusal :=
  .next (hostRequest .always cmdReset r s)

/-! ### SET_TRAIL and REMOVE_CERT -/

/-- SET_TRAIL with its body (R100). -/
def cmdSetTrail (body : List Byte) (s : State) : Answer :=
  let line := byteAt body 0
  let value := wordAt body 1
  if body.length ≠ 3 then respond .badArg [] s
  else if line = 0 ∨ 4 < line then respond .badArg (put1 line) s
  else
    respond (if 200 < value then .clamped else .ok) (put1 line ++ put2 (min 200 value))
      { s with fill := { s.fill with trails := s.fill.trails.set line (min 200 value) } }

/-- SET_TRAIL (R100). -/
def execSetTrail (r : Request) (s : State) : Host.Outcome State Fault Refusal :=
  .next (hostRequest .always cmdSetTrail r s)

/-- REMOVE_CERT (R169): the compartment stands at byte 4 of a record (chapter 12.5). -/
def cmdRemoveCert (_ : List Byte) (s : State) : Answer :=
  match s.certs.records with
  | [] => respond .empty [] s
  | head :: rest =>
    respond .ok (put1 (byteAt head 4) ++ put1 head.length ++ put1 rest.length)
      (tryPromote { s with certs := { s.certs with records := rest } })

/-- REMOVE_CERT (R169). -/
def execRemoveCert (r : Request) (s : State) : Host.Outcome State Fault Refusal :=
  .next (hostRequest .always cmdRemoveCert r s)

end Sys2Proof.Machine
end

