-- ==== Sys2Proof/Machine/Reads.lean ====
section
/-!
DEFINITION. The commands that read: STATUS (R192), READ_JOB (R25), READ_PEERS (R141), READ_EVENT
(R194), READ_CERT (R168), READ_SNAPSHOT (R183) and GET_TRAIL (R100), with their bodies (chapter 12.4).
-/

namespace Sys2Proof.Machine

/-! ### STATUS -/

/-- The 10 bytes of STATUS (chapter 12.4). -/
def State.statusBody (s : State) : List Byte :=
  put1 s.bay.code ++ put1 s.safety.causes.code ++ put1 s.statusFlags ++
  put1 (s.jobs.last.code + 16 * s.jobs.previous.code) ++ put1 s.events.records.length ++
  put1 s.certs.records.length ++ put2 s.certs.freeBytes ++ put1 s.peers.length ++
  put1 s.sticky.code

/-- The STATUS command (R192): the sticky alarm flags are reported and then cleared. -/
def cmdStatus (_ : List Byte) (s : State) : Answer :=
  respond .ok s.statusBody { s with sticky := .clear }

/-- STATUS (R192). -/
def execStatus (r : Request) (s : State) : Host.Outcome State Fault Refusal :=
  .next (hostRequest .always cmdStatus r s)

/-! ### READ_JOB -/

/-- A time in units of 100 ms, saturated; a stopped timer reads 0 (R25, R202). -/
def putTime (t : Option Nat) : List Byte := putSat2 (t.getD 0 / 100)

/-- The staged slot's part (chapter 12.4). -/
def stagedBytes (j : Option StagedJob) : List Byte :=
  match j with
  | some j => put1 (if j.waitMark then 2 else 1) ++ put4 j.tag.toNat ++ put1 j.comps.length
  | none => put1 0 ++ put4 0 ++ put1 0

/-- The active slot's part. -/
def activeBytes (j : Option ActiveJob) : List Byte :=
  match j with
  | some j => put1 (if j.running then 2 else 1) ++ put4 j.tag.toNat ++ put1 j.comps.length
  | none => put1 0 ++ put4 0 ++ put1 0

/-- A compartment's nine bytes. -/
def Comp.bytes (c : Comp) : List Byte :=
  put1 c.state.code ++ put1 (ownerCode c.owner) ++ put1 c.reason.code ++ put1 c.loaded.drop ++
  put1 c.loaded.fillLine ++ put1 c.loaded.stored.jobCode ++ put1 c.retriesUsed ++ put2 c.revolutions

/-- Compartment `i`'s nine bytes, zeros beyond the job's n (R200). -/
def State.compBytes (s : State) (i : Nat) : List Byte :=
  match s.comp? i with
  | some c => c.bytes
  | none => List.replicate 9 0

/-- Timer 1 of a circuit by its state (chapter 12.4). -/
def Circuit.timer1 (x : Circuit) : Option Nat :=
  match x.state with
  | .waitDrop => x.dropWait
  | .running => x.stallLimit
  | .paused => x.pause
  | .runOut => x.runOut
  | .idle => none
  | .admitting => none

/-- Timer 2 of a circuit: the sump timer in RUN. -/
def Circuit.timer2 (x : Circuit) : Option Nat := if x.state = .running then x.sump else none

/-- Whether an INSPECT step is in progress on a circuit (R84). -/
def State.inspecting (s : State) (c : Side) : Bool :=
  (s.circ c).state.hasCounts &&
  (match s.stepOf c with
    | some st => decide (st.kind = .inspect)
    | none => false)

/-- The sample set shown: empty when no INSPECT step is in progress (R84). -/
def State.shownSamples (s : State) (c : Side) : SampleSet :=
  if s.inspecting c then (s.circ c).samples else .cleared

/-- A circuit's 42 bytes (chapter 12.4). -/
def State.circuitBytes (s : State) (c : Side) : List Byte :=
  let x := s.circ c
  let m := s.shownSamples c
  put1 x.state.code ++ put1 x.comp ++ put1 x.step ++
  put1 (flagByte [(x.spinning, 1)] + 2 * x.lastStatus.code) ++
  putTime x.timer1 ++ putTime x.timer2 ++
  put2 x.rcd.elapsed ++ put2 x.rcd.good ++ put4 x.rcd.dose256 ++ put2 x.rcd.dose ++
  put1 x.rcd.tMin ++ put1 x.rcd.tMax ++ put1 x.rcd.corrected ++ put1 x.rcd.failed ++
  put2 (revolutionsOf x.rcd.pulses (s.pulsesPerRev c)) ++ put1 x.rcd.pauses ++ put1 x.probeFault ++
  put2 x.heldQ ++ put1 x.lastTemp ++ put2 x.lastIncrement ++
  put1 m.n ++ put2 (meanOf m.excess m.n) ++ put2 (meanOf m.turbidity m.n) ++
  put2 x.lastReturn ++ put2 x.lastSupply ++ put2 x.lastTurbidity

/-- The fill controller's running timer by its state (chapter 12.4). -/
def FillController.timer (f : FillController) : Option Nat :=
  match f.state with
  | .waitDrop => f.dropWait
  | .awaitSkid => f.skid
  | .flowing => f.noFlow
  | .closing => f.runOut
  | .idle => none
  | .admitting => none
  | .interrupted => none

/-- The fill controller's 24 bytes (R101). -/
def State.fillBytes (s : State) : List Byte :=
  put1 s.fill.state.code ++ put1 s.fill.comp ++ put1 s.fill.line ++ put1 s.fill.closeKind.code ++
  put2 s.fill.preset ++ put4 s.fill.pulses ++ putSat2 s.fillVolume ++ put4 s.fill.closePoint ++
  putSat2 s.fill.volumeAtClose ++ put1 s.fill.trailUsed ++ put1 s.fill.interruptions ++
  putTime s.fill.timer ++ putSat2 (s.fill.duration / 1000)

/-- The FILL_WAIT order's seven bytes. -/
def State.orderBytes (s : State) : List Byte :=
  put1 s.fill.order.length ++
  ((s.fill.order ++ List.replicate 6 0).take 6).map (BitVec.ofNat 8)

/-- The wait age shown: 0 when IDLE or SATISFIED (R125). -/
def Admission.shownWaitAge (a : Admission) (c : Claim) : Nat := if c.granted then 0 else a.waitAge c

/-- A claim's 15 bytes (R125). -/
def Admission.claimBytes (a : Admission) (c : Claim) : List Byte :=
  put1 (c.state.code + flagByte [(c.shed, 128)]) ++
  put2 c.need.heat ++ put2 c.need.flow ++ put2 c.need.drain ++
  put2 c.committed.heat ++ put2 c.committed.flow ++ put2 c.committed.drain ++
  put1 (c.need.line + 16 * c.committed.line) ++ put1 (a.shownWaitAge c)

/-- The announced age shown: 0 while none, or with no claim in INTENT (R125). -/
def Admission.shownAnnouncedAge (a : Admission) : Nat :=
  match a.intentClaim with
  | some _ => a.announcedAge.getD 0
  | none => 0

/-- The admission unit's 15 bytes (R125). -/
def Admission.bytes (a : Admission) : List Byte :=
  put2 a.effHeat ++ put2 a.effFlow ++ put2 a.effDrain ++ put4 a.tick.toNat ++ put1 a.newestAge ++
  put1 (ownerCode a.intentClaim) ++ put1 a.shownAnnouncedAge ++ putTime a.settle

/-- The yard line unit's six bytes (R161). -/
def LineUnit.bytes (l : LineUnit) : List Byte :=
  put1 l.flags ++ put1 l.framer.lastDiscard.code ++
  put1 (l.transmitCode + 16 * l.lastOutcome.code) ++ put1 l.pendingFrame.code ++
  put1 l.window.length ++ put1 l.badCount

/-- The 247 bytes of READ_JOB (R25, chapter 12.4). -/
def State.jobBody (s : State) : List Byte :=
  stagedBytes s.jobs.staged ++ activeBytes s.jobs.active ++
  s.compBytes 1 ++ s.compBytes 2 ++ s.compBytes 3 ++ s.compBytes 4 ++ s.compBytes 5 ++
  s.compBytes 6 ++
  s.circuitBytes .a ++ s.circuitBytes .b ++ s.fillBytes ++ s.orderBytes ++
  s.adm.claimBytes s.adm.claimA ++ s.adm.claimBytes s.adm.claimB ++
  s.adm.claimBytes s.adm.claimFill ++ s.adm.bytes ++ s.line.bytes

/-- The READ_JOB command (R25). -/
def cmdReadJob (_ : List Byte) (s : State) : Answer := respond .ok s.jobBody s

/-- READ_JOB (R25). -/
def execReadJob (r : Request) (s : State) : Host.Outcome State Fault Refusal :=
  .next (hostRequest .inYard cmdReadJob r s)

/-! ### READ_PEERS -/

/-- The 29 bytes of an entry at an index (chapter 12.4). -/
def State.peerBody (s : State) (index : Nat) (p : Peer) : List Byte :=
  put1 s.peers.length ++ put1 index ++ put1 p.address.toNat ++ put1 (if p.stale then 1 else 0) ++
  put1 p.flags ++ put1 p.capSet.toNat ++
  put1 (flagByte [(p.mismatch, 1), (p.mismatchReported, 2)]) ++
  put2 p.committedHeat ++ put2 p.committedFlow ++ put2 p.committedDrain ++ put1 p.heldLines.toNat ++
  put2 p.intentHeat ++ put2 p.intentFlow ++ put2 p.intentDrain ++ put1 p.intentLine ++
  put1 p.intentAge ++ put1 p.newestAge ++ put4 p.heard.toNat ++ putSat2 (s.peerAge p)

/-- READ_PEERS with its body (R141); whether its BAD_ARG has a detail no rule says (log 7). -/
def cmdReadPeers (body : List Byte) (s : State) : Answer :=
  if body.length ≠ 1 then
    respond .badArg (Config.freeDetail s.drawn) { s with drawn := s.drawn + 1 }
  else
    match s.peers[byteAt body 0]? with
    | some p => respond .ok (s.peerBody (byteAt body 0) p) s
    | none => respond .empty (put1 s.peers.length) s

/-- READ_PEERS (R141). -/
def execReadPeers (r : Request) (s : State) : Host.Outcome State Fault Refusal :=
  .next (hostRequest .inYard cmdReadPeers r s)

/-! ### READ_EVENT, READ_CERT, READ_SNAPSHOT, GET_TRAIL -/

/-- The eight bytes of an event record (chapter 12.4). -/
def Event.bytes (e : Event) : List Byte :=
  put1 (e.kind.code + flagByte [(e.lost, 128)]) ++ [e.d0, e.d1, e.d2] ++ put4 e.time.toNat

/-- The READ_EVENT command (R194). -/
def cmdReadEvent (_ : List Byte) (s : State) : Answer :=
  match s.events.records with
  | [] => respond .empty [] s
  | e :: rest => respond .ok e.bytes { s with events := { s.events with records := rest } }

/-- READ_EVENT (R194). -/
def execReadEvent (r : Request) (s : State) : Host.Outcome State Fault Refusal :=
  .next (hostRequest .always cmdReadEvent r s)

/-- READ_CERT with its body (R168). -/
def cmdReadCert (body : List Byte) (s : State) : Answer :=
  let offset := byteAt body 0
  let asked := byteAt body 1
  if body.length ≠ 2 then respond .badArg (put1 1) s
  else if asked = 0 then respond .badArg (put1 2) s
  else
    match s.certs.records with
    | [] => respond .empty [] s
    | head :: _ =>
      let n := certReadLength head.length offset asked
      respond (if n = asked then .ok else .clamped)
        (put1 head.length ++ put1 n ++ (head.drop offset).take n) s

/-- READ_CERT (R168). -/
def execReadCert (r : Request) (s : State) : Host.Outcome State Fault Refusal :=
  .next (hostRequest .always cmdReadCert r s)

/-- A circuit's nine bytes of the snapshot. -/
def CircuitSnapshot.bytes (x : CircuitSnapshot) : List Byte :=
  put1 x.comp ++ put1 x.step ++ put1 x.state.code ++ put2 x.dose ++ put2 x.elapsed ++ put2 x.good

/-- The 28 bytes of READ_SNAPSHOT (chapter 12.4); the volume fits its field unless a compartment was
overfilled beyond it (R202). -/
def Snapshot.bytes (n : Snapshot) : List Byte :=
  put1 n.cause.bit ++ put4 n.time.toNat ++ put1 n.left.code ++ n.a.bytes ++ n.b.bytes ++
  put1 n.fillComp ++ put1 n.fillState.code ++ putSat2 n.fillVolume

/-- The READ_SNAPSHOT command (R183). -/
def cmdReadSnapshot (_ : List Byte) (s : State) : Answer :=
  match s.safety.snapshot with
  | some n => respond .ok n.bytes s
  | none => respond .empty [] s

/-- READ_SNAPSHOT (R183). -/
def execReadSnapshot (r : Request) (s : State) : Host.Outcome State Fault Refusal :=
  .next (hostRequest .always cmdReadSnapshot r s)

/-- The GET_TRAIL command (R100), one byte a trail (notes/assumptions/30.md). -/
def cmdGetTrail (_ : List Byte) (s : State) : Answer :=
  let t := s.fill.trails
  respond .ok (put1 t.t1 ++ put1 t.t2 ++ put1 t.t3 ++ put1 t.t4) s

/-- GET_TRAIL (R100). -/
def execGetTrail (r : Request) (s : State) : Host.Outcome State Fault Refusal :=
  .next (hostRequest .always cmdGetTrail r s)

end Sys2Proof.Machine
end

