-- ==== Sys2Proof/Machine/Outputs.lean ====
section
/-!
DEFINITION. The pins by level (R4). The outputs are functions of the state (R34, R86, R176, R185, R194,
R198): what the part drives follows from the states of its blocks and holds no state of its own
(notes/assumptions/28.md). RESETN asserted holds every output (R197).
-/

namespace Sys2Proof.Machine

/-- SUPA, SUPB: true with the supply valve open (R34, R176, R198). -/
def State.supplyOpen (s : State) (c : Side) : Bool :=
  !s.pins.resetn && !s.safety.override && decide ((s.circ c).state = .running) &&
  (match s.stepOf c with
    | some st => decide (st.kind ≠ .drain)
    | none => false)

/-- PMPA, PMPB: true with the return pump on (R34, R176, R198). -/
def State.pumpOn (s : State) (c : Side) : Bool :=
  !s.pins.resetn && !s.safety.override &&
  (decide ((s.circ c).state = .running) || decide ((s.circ c).state = .runOut))

/-- DRNA, DRNB: true at pin level 1, the drain valve closed; it is open in every state (R34, R198). -/
def State.drainClosedPin (_ : State) (_ : Side) : Bool := false

/-- The medium selector of R198: 0 WATER, 1 HOT_WATER, 2 DETERGENT, 3 ACID, 4 SANITIZER. -/
def Medium.selector : Medium → Nat
  | .none => 0
  | .water => 0
  | .hotWater => 1
  | .detergent => 2
  | .acid => 3
  | .sanitizer => 4

/-- MEDA, MEDB: the step's medium while the supply valve is open, else WATER (R34, R198). -/
def State.mediumPin (s : State) (c : Side) : Nat :=
  if s.supplyOpen c then
    match s.stepOf c with
    | some st => st.medium.selector
    | none => 0
  else 0

/-- DRPA, DRPB: the drop selector (R14, R198). -/
def State.dropPin (s : State) (c : Side) : Nat :=
  match c with
  | .a => s.circA.dropSel - 1
  | .b => s.circB.dropSel - 5

/-- FILV: true with the fill valve open (R86, R176, R198). -/
def State.fillValveOpen (s : State) : Bool :=
  !s.pins.resetn && !s.safety.override && decide (s.fill.state = .flowing)

/-- DEMAND_L asserted (R86, R176). -/
def State.demand (s : State) (line : Nat) : Bool :=
  !s.pins.resetn && !s.safety.override &&
  (decide (s.fill.state = .awaitSkid) || decide (s.fill.state = .flowing)) &&
  decide (s.fill.line = line)

/-- FDRP: the fill-drop selector (R14, R198). -/
def State.fillDropPin (s : State) : Nat := s.fill.dropSel - 1

/-- ATTN asserted: while the event queue holds a record (R194). -/
def State.attn (s : State) : Bool := !s.pins.resetn && decide (s.events.records ≠ [])

/-- The level of YLD in an attempt: the bit of the cell in progress, 1 before its first cell (R154). -/
def Attempt.driven (a : Attempt) : Bool :=
  match a.cells with
  | 0 => true
  | k + 1 => (lineBits a.content).getD k true

/-- YLD: the bit driven in SENDING, released at 1 otherwise (R143, R154, R197). -/
def State.yld (s : State) : Bool :=
  s.pins.resetn ||
  (match s.line.attempt with
    | some a => a.driven
    | none => true)

/-- The bytes of a response in the order shifted out (R185). -/
def Response.bytes (r : Response) : List Byte :=
  Config.statusCode r.status :: put1 r.body.length ++ r.body

/-- The `i`-th byte the part shifts out in an exchange: the response, then 0x00; 0 with SELN deasserted
or an exchange not taken (R185, R197). -/
def State.shiftedByte (s : State) (i : Nat) : Byte :=
  match s.port.shiftOut with
  | some r => (Response.bytes r).getD i 0
  | none => 0

/-- SDO after `k` falling edges of SCK in the exchange: each byte MSB first, the first one's MSB from the
assertion of SELN on; 0 with SELN deasserted or RESETN asserted (R185, R197). -/
def State.sdo (s : State) (k : Nat) : Bool :=
  !s.pins.resetn && (s.shiftedByte (k / 8)).getLsbD (7 - k % 8)

/-! ### Levels (R4) -/

/-- The inputs that are asserted or deasserted (R4, R185). -/
inductive InputPin where
  | resetn
  | estop
  | pfw
  | seln
  | derate
  | sumpEmpty
  | conn (d : Drop)
  | high (d : Drop)
  | deliv (l : FillLine)
  deriving DecidableEq, Repr

/-- RESETN, ESTOP, PFW (R4) and SELN (R185) are active low, the others active high (R4). -/
def InputPin.activeLow : InputPin → Bool
  | .resetn => true
  | .estop => true
  | .pfw => true
  | .seln => true
  | .derate => false
  | .sumpEmpty => false
  | .conn _ => false
  | .high _ => false
  | .deliv _ => false

/-- Whether an input is asserted. -/
def State.inputAsserted (s : State) : InputPin → Bool
  | .resetn => s.pins.resetn
  | .estop => s.pins.estop
  | .pfw => s.pins.pfw
  | .seln => decide (s.port.exchange ≠ .none)
  | .derate => s.pins.derate
  | .sumpEmpty => s.pins.sump
  | .conn d => s.conn d.num
  | .high d => s.high d.num
  | .deliv l => s.deliv l.num

/-- The level of an input pin: its active level when asserted (R4). -/
def State.inputLevel (s : State) (p : InputPin) : Bool := s.inputAsserted p != p.activeLow

/-- The level of DEMAND1..DEMAND4, active high (R4). -/
def State.demandLevel (s : State) (l : FillLine) : Bool := s.demand l.num

/-- The level of ATTN, active high (R4). -/
def State.attnLevel (s : State) : Bool := s.attn

end Sys2Proof.Machine
end

