-- ==== Sys2Proof/Machine/Timebase.lean ====
section
/-!
DEFINITION. The timebase (R2, R3): what one step does with no command waiting. A row of the part's own
timers that is due goes into the queue; with none due, a millisecond passes
(notes/assumptions/1.md, 3.md).
-/

namespace Sys2Proof.Machine

/-! ### One millisecond -/

/-- A timer a millisecond later. -/
def countDown (t : Option Nat) : Option Nat := t.map fun left => left - 1

/-- The pause timer a millisecond later, saturating at 2^32 - 1 (R47). -/
def countUp (t : Option Nat) : Option Nat := t.map fun n => satInc n maxCount

/-- A wash circuit a millisecond later. -/
def Circuit.elapse (x : Circuit) : Circuit :=
  { x with
    dropWait := countDown x.dropWait
    stepSecond := countDown x.stepSecond
    stallMonitor := countDown x.stallMonitor
    stallLimit := countDown x.stallLimit
    sump := countDown x.sump
    runOut := countDown x.runOut
    pause := countUp x.pause }

/-- Whether the duration count of a fill runs (R91). -/
def FillState.timed : FillState → Bool
  | .awaitSkid => true
  | .flowing => true
  | .closing => true
  | .idle => false
  | .waitDrop => false
  | .admitting => false
  | .interrupted => false

/-- The fill controller a millisecond later (R91). -/
def FillController.elapse (f : FillController) : FillController :=
  { f with
    dropWait := countDown f.dropWait
    skid := countDown f.skid
    noFlow := countDown f.noFlow
    runOut := countDown f.runOut
    duration := if f.state.timed then satInc f.duration maxCount else f.duration }

/-- The admission unit a millisecond later. -/
def Admission.elapse (a : Admission) : Admission :=
  { a with
    settle := countDown a.settle
    announce := countDown a.announce
    listen := countDown a.listen }

/-- A millisecond passes (R2, R3): the count runs in LISTEN, LIVE and SAFE (R189). -/
def elapse (s : State) : State :=
  { s with
    ms := if s.bay.working then s.ms + 1 else s.ms
    circA := s.circA.elapse
    circB := s.circB.elapse
    fill := s.fill.elapse
    adm := s.adm.elapse
    leaveTimer := countDown s.leaveTimer }

/-! ### Rows that are due -/

/-- A row that is due when a timer has run down. -/
def dueAt (t : Option Nat) (i : Instr) : List Instr := if t = some 0 then [i] else []

/-- The step-second row of a circuit's step kind (R37, R41, R71). -/
def secondRow (c : Side) (k : StepKind) : Instr :=
  match k with
  | .rinse => .stepSecond c
  | .wash => .stepSecond c
  | .sanitize => .stepSecond c
  | .drain => .drainStepSecond c
  | .inspect => .inspectStepSecond c

/-- The step-second row due on a circuit in RUN. -/
def State.dueSecond (s : State) (c : Side) : List Instr :=
  match s.stepOf c with
  | some st =>
    if (s.circ c).state = .running then dueAt (s.circ c).stepSecond (secondRow c st.kind) else []
  | none => []

/-- The rows due on a wash circuit. -/
def State.dueCircuit (s : State) (c : Side) : List Instr :=
  let x := s.circ c
  dueAt x.dropWait (.dropWaitExpiry (sideConsumer c)) ++ s.dueSecond c ++
  dueAt x.stallMonitor (.stallMonitorExpiry c) ++ dueAt x.stallLimit (.stallLimitExpiry c) ++
  dueAt x.sump (.sumpTimerExpiry c) ++ dueAt x.runOut (.runOutExpiry c)

/-- The rows due on the fill controller. -/
def FillController.due (f : FillController) : List Instr :=
  dueAt f.dropWait (.dropWaitExpiry .fill) ++ dueAt f.skid .skidTimerExpiry ++
  dueAt f.noFlow .noFlowExpiry ++ dueAt f.runOut .fillRunOutExpiry

/-- The ageing row due on a peer entry (R138). -/
def State.duePeer (s : State) (p : Peer) : List Instr :=
  if s.bay.working then
    if s.peerGone p then [.peerAgeGone p.address]
    else if s.peerSilent p then [.peerAgeStale p.address]
    else []
  else []

/-- Every row due now. -/
def State.due (s : State) : List Instr :=
  (if s.port.preparing then [.preparationDone] else []) ++
  s.dueCircuit .a ++ s.dueCircuit .b ++ s.fill.due ++
  dueAt s.adm.announce .announcementTick ++ dueAt s.adm.settle .settleWindowExpiry ++
  (if s.bay = .listen then dueAt s.adm.listen .listenTimerExpiry else []) ++
  s.peers.flatMap s.duePeer ++
  (if s.bay = .resetting then dueAt s.leaveTimer .leaveTimerExpiry else [])

/-- What the part does with no command waiting: the one row due goes into the queue, or one of several,
freely chosen; with none due a millisecond passes. -/
def idleStep (s : State) : State :=
  match s.due with
  | [] => elapse s
  | [i] => { s with pending := [i] }
  | i :: j :: rest =>
    let rows := i :: j :: rest
    { s with
      pending := [rows.getD (Config.tieChoice s.tie % rows.length) i]
      tie := s.tie + 1 }

end Sys2Proof.Machine
end

