-- ==== Sys2Proof/Machine/Dispatch.lean ====
section
/-!
DEFINITION. The meaning of every row of spec/opcode_table.json, one arm a constructor.
-/

namespace Sys2Proof.Machine

def exec (i : Instr) (s : State) : Host.Outcome State Fault Refusal :=
  match i with
  | .nop r => Sys2Proof.Machine.execNop r s
  | .status r => Sys2Proof.Machine.execStatus r s
  | .configure r => Sys2Proof.Machine.execConfigure r s
  | .writeWeights r => Sys2Proof.Machine.execWriteWeights r s
  | .writeRecipe r => Sys2Proof.Machine.execWriteRecipe r s
  | .writeMatrix r => Sys2Proof.Machine.execWriteMatrix r s
  | .go addr r => Sys2Proof.Machine.execGo addr r s
  | .loadJob r => Sys2Proof.Machine.execLoadJob r s
  | .cancelStaged r => Sys2Proof.Machine.execCancelStaged r s
  | .position r => Sys2Proof.Machine.execPosition r s
  | .abortComp r => Sys2Proof.Machine.execAbortComp r s
  | .abortJob r => Sys2Proof.Machine.execAbortJob r s
  | .readJob r => Sys2Proof.Machine.execReadJob r s
  | .readPeers r => Sys2Proof.Machine.execReadPeers r s
  | .safeStop r => Sys2Proof.Machine.execSafe r s
  | .resume r => Sys2Proof.Machine.execResume r s
  | .readEvent r => Sys2Proof.Machine.execReadEvent r s
  | .readCert r => Sys2Proof.Machine.execReadCert r s
  | .removeCert r => Sys2Proof.Machine.execRemoveCert r s
  | .readSnapshot r => Sys2Proof.Machine.execReadSnapshot r s
  | .getTrail r => Sys2Proof.Machine.execGetTrail r s
  | .setTrail r => Sys2Proof.Machine.execSetTrail r s
  | .reset r => Sys2Proof.Machine.execReset r s
  | .unknownCommand r => Sys2Proof.Machine.execUnknownCommand r s
  | .exchangeStart => Sys2Proof.Machine.execExchangeStart s
  | .preparationDone => Sys2Proof.Machine.execPreparationDone s
  | .powerOnReset => Sys2Proof.Machine.execPowerOnReset s
  | .estopAsserted => Sys2Proof.Machine.execEstopAsserted s
  | .pfwAsserted => Sys2Proof.Machine.execPfwAsserted s
  | .pfwDeasserted => Sys2Proof.Machine.execPfwDeasserted s
  | .derateAsserted => Sys2Proof.Machine.execDerateAsserted s
  | .derateDeasserted => Sys2Proof.Machine.execDerateDeasserted s
  | .connAsserted d => Sys2Proof.Machine.execConnAsserted d s
  | .connDeasserted d => Sys2Proof.Machine.execConnDeasserted d s
  | .highAsserted d level => Sys2Proof.Machine.execHighAsserted d level s
  | .delivAsserted l => Sys2Proof.Machine.execDelivAsserted l s
  | .delivDeasserted l => Sys2Proof.Machine.execDelivDeasserted l s
  | .sumpEmptyAsserted => Sys2Proof.Machine.execSumpEmptyAsserted s
  | .sumpEmptyDeasserted => Sys2Proof.Machine.execSumpEmptyDeasserted s
  | .flowMeterPulse c => Sys2Proof.Machine.execFlowMeterPulse c s
  | .spinnerPulse c => Sys2Proof.Machine.execSpinnerPulse c s
  | .fillMeterPulse => Sys2Proof.Machine.execFillMeterPulse s
  | .probeSample a b => Sys2Proof.Machine.execProbeSample a b s
  | .dropWaitExpiry c => Sys2Proof.Machine.execDropWaitExpiry c s
  | .stepSecond c => Sys2Proof.Machine.execStepSecond c s
  | .drainStepSecond c => Sys2Proof.Machine.execDrainStepSecond c s
  | .inspectStepSecond c => Sys2Proof.Machine.execInspectStepSecond c s
  | .sumpTimerExpiry c => Sys2Proof.Machine.execSumpTimerExpiry c s
  | .stallMonitorExpiry c => Sys2Proof.Machine.execStallMonitorExpiry c s
  | .stallLimitExpiry c => Sys2Proof.Machine.execStallLimitExpiry c s
  | .runOutExpiry c => Sys2Proof.Machine.execRunOutExpiry c s
  | .skidTimerExpiry => Sys2Proof.Machine.execSkidTimerExpiry s
  | .noFlowExpiry => Sys2Proof.Machine.execNoFlowExpiry s
  | .fillRunOutExpiry => Sys2Proof.Machine.execFillRunOutExpiry s
  | .announcementTick => Sys2Proof.Machine.execAnnouncementTick s
  | .settleWindowExpiry => Sys2Proof.Machine.execSettleWindowExpiry s
  | .listenTimerExpiry => Sys2Proof.Machine.execListenTimerExpiry s
  | .peerAgeStale address => Sys2Proof.Machine.execPeerAgeStale address s
  | .peerAgeGone address => Sys2Proof.Machine.execPeerAgeGone address s
  | .leaveTimerExpiry => Sys2Proof.Machine.execLeaveTimerExpiry s
  | .announceReceived content => Sys2Proof.Machine.execAnnounceReceived content s
  | .leaveReceived content => Sys2Proof.Machine.execLeaveReceived content s
  | .rollCallReceived address capSet => Sys2Proof.Machine.execRollCallReceived address capSet s
  | .frameDiscard e => Sys2Proof.Machine.execFrameDiscard e s
  | .attemptStart => Sys2Proof.Machine.execAttemptStart s
  | .lostArbitration bit => Sys2Proof.Machine.execLostArbitration bit s
  | .bitError bit => Sys2Proof.Machine.execBitError bit s
  | .frameSent => Sys2Proof.Machine.execFrameSent s
  | .estopDeasserted => Sys2Proof.Machine.execEstopDeasserted s
  | .ylsEdge samples => Sys2Proof.Machine.execYlsEdge samples s
  | .clockUnlocked => Sys2Proof.Machine.execClockUnlocked s
  | .frameOpened => Sys2Proof.Machine.execFrameOpened s
  | .lineFree => Sys2Proof.Machine.execLineFree s
  | .lineBusy => Sys2Proof.Machine.execLineBusy s

end Sys2Proof.Machine
end

