-- ==== Sys2Proof/Safety.lean ====
section
/-!
DEFINITION. What a safe part is, in the terms the statements use: the guarantees the rules give of every
state between two commands, and the words for requests and their answers.
-/

namespace Sys2Proof.Safety

open Sys2Proof.Machine

/-! ### Requests -/

/-- A request whose bytes after the command byte are its length byte and its body (R185). -/
def requestOf (body : List Byte) : Request := ⟨some (BitVec.ofNat 8 body.length), body⟩

/-- A body short enough for a request (R186 case 4). -/
def bodyFits (body : List Byte) : Prop := body.length ≤ 250

/-- The exchange in progress is one the part answers: SELN was asserted with the port not PREPARING
(R187). -/
def inExchange (s : State) : Prop := s.port.exchange = .answering

/-- A state whose port has ended its exchange with a response to prepare (R185, R187). -/
def answeredWith (t : State) (st : Status) (body : List Byte) : State :=
  { t with port := ⟨.none, true, ⟨st, body⟩, none⟩ }

/-- The request a row carries: none for the rows that are no request of a known command. -/
def requestIn : Instr → Option Request
  | .nop r => some r
  | .status r => some r
  | .configure r => some r
  | .writeWeights r => some r
  | .writeRecipe r => some r
  | .writeMatrix r => some r
  | .go _ r => some r
  | .loadJob r => some r
  | .cancelStaged r => some r
  | .position r => some r
  | .abortComp r => some r
  | .abortJob r => some r
  | .readJob r => some r
  | .readPeers r => some r
  | .safeStop r => some r
  | .resume r => some r
  | .readEvent r => some r
  | .readCert r => some r
  | .removeCert r => some r
  | .readSnapshot r => some r
  | .getTrail r => some r
  | .setTrail r => some r
  | .reset r => some r
  | _ => none

/-- The bay states the table of R188 gives a command. -/
def executedIn (i : Instr) (b : BayState) : Bool :=
  match i with
  | .configure _ => decide (b = .setup)
  | .writeWeights _ => decide (b = .setup)
  | .writeRecipe _ => decide (b = .setup)
  | .writeMatrix _ => decide (b = .setup)
  | .go _ _ => decide (b = .setup)
  | .loadJob _ => decide (b = .listen ∨ b = .live ∨ b = .safe)
  | .cancelStaged _ => decide (b = .listen ∨ b = .live ∨ b = .safe)
  | .position _ => decide (b = .listen ∨ b = .live ∨ b = .safe)
  | .abortComp _ => decide (b = .listen ∨ b = .live ∨ b = .safe)
  | .abortJob _ => decide (b = .listen ∨ b = .live ∨ b = .safe)
  | .readJob _ => decide (b = .listen ∨ b = .live ∨ b = .safe)
  | .readPeers _ => decide (b = .listen ∨ b = .live ∨ b = .safe)
  | .safeStop _ => decide (b = .listen ∨ b = .live)
  | .resume _ => decide (b = .safe)
  | _ => decide (b ≠ .resetting)

/-! ### Recipes (R29, R30) -/

/-- The slot index, the step count and the length of a WRITE_RECIPE body are right: checks 1 to 3 of R30. -/
def recipeHeaderRight (b : List Byte) : Prop :=
  2 ≤ b.length ∧ byteAt b 0 ≤ 15 ∧ 1 ≤ byteAt b 1 ∧ byteAt b 1 ≤ 8 ∧
  b.length = 6 + 23 * byteAt b 1

/-- The media of a kind's code: RINSE takes WATER and HOT_WATER, WASH takes DETERGENT and ACID, SANITIZE
takes SANITIZER, DRAIN takes NONE, INSPECT takes WATER (R29, chapter 12.1). -/
def mediaOf : Nat → List Nat
  | 1 => [1, 2]
  | 2 => [3, 4]
  | 3 => [5]
  | 4 => [0]
  | 5 => [1]
  | _ => []

/-- The first of checks 5 to 14 of R30 that step `j + 1` of a WRITE_RECIPE body fails, in order; a field
that the kind does not use is taken as 0. -/
def stepFault (b : List Byte) (j : Nat) : Option Nat :=
  let o := 6 + 23 * j
  let kind := byteAt b o
  let heat := if kind = 4 then 0 else wordAt b (o + 2)
  let flow := if kind = 4 then 0 else wordAt b (o + 4)
  if kind < 1 ∨ 5 < kind then some 5
  else if (kind = 5 ∧ j + 1 ≠ byteAt b 1) ∨ (kind ≠ 5 ∧ j + 1 = byteAt b 1) then some 6
  else if byteAt b (o + 1) ∉ mediaOf kind then some 7
  else if 4000 < heat ∨ 2000 < flow ∨ 3000 < wordAt b (o + 6) then some 8
  else if kind ≠ 4 ∧ (flow = 0 ∨ flow < wordAt b (o + 8)) then some 9
  else if kind ≠ 4 ∧ wordAt b (o + 10) = 0 then some 10
  else if (kind ≠ 5 ∧ wordAt b (o + 12) = 0) ∨
      (kind = 1 ∧ wordAt b (o + 12) < wordAt b (o + 10)) then some 11
  else if 3600 < wordAt b (o + 14) then some 12
  else if (kind = 2 ∨ kind = 3) ∧ 3 < byteAt b (o + 16) then some 13
  else if kind = 5 ∧ 9999 < wordAt b (o + 19) then some 14
  else none

/-! ### Job records (R5, R7) -/

/-- The count and the length of a LOAD_JOB body are right: checks 1 and 2 of R7. -/
def jobHeaderRight (b : List Byte) : Prop :=
  1 ≤ byteAt b 4 ∧ byteAt b 4 ≤ 6 ∧ b.length = 5 + 6 * byteAt b 4

/-- A matrix entry that names a recipe slot with no steps in it. -/
def namesEmptySlot (st : RecipeStore) : MatrixEntry → Bool
  | .forbidden => false
  | .noRecipe => false
  | .recipe i => (st.recipe? i).isNone

/-- The first of checks 3 to 8 of R7 that compartment `j + 1` of a LOAD_JOB body fails, in order. -/
def compFault (st : RecipeStore) (b : List Byte) (j : Nat) : Option Nat :=
  let o := 5 + 6 * j
  let drop := byteAt b (o + 2)
  let line := byteAt b (o + 3)
  let volume := wordAt b (o + 4)
  let entry := st.entry (byteAt b o) (byteAt b (o + 1))
  if 15 < byteAt b o ∨ 15 < byteAt b (o + 1) then some 3
  else if 8 < drop ∨ (drop ≠ 0 ∧ drop ∈ (List.range j).map fun m => byteAt b (5 + 6 * m + 2)) then
    some 4
  else if 1 ≤ line ∧ line ≤ 4 ∧ drop = 0 then some 5
  else if 4 < line ∨ (1 ≤ line ∧ (volume = 0 ∨ 40000 < volume)) then some 6
  else if drop ≠ 0 ∧ entry = .forbidden then some 7
  else if drop ≠ 0 ∧ namesEmptySlot st entry = true then some 8
  else none

/-- Compartment `j + 1` of a LOAD_JOB body as the job keeps it: each field from its byte, the volume of a
fill only, the matrix entry of the change for a handled compartment only (R5, chapter 12.1). -/
def compLaid (st : RecipeStore) (b : List Byte) (j : Nat) (c : LoadedComp) : Prop :=
  c.prior = byteAt b (5 + 6 * j) ∧ c.next = byteAt b (6 + 6 * j) ∧ c.drop = byteAt b (7 + 6 * j) ∧
  c.fillLine = byteAt b (8 + 6 * j) ∧
  c.fillVolume = (if byteAt b (8 + 6 * j) = 0 then 0 else wordAt b (9 + 6 * j)) ∧
  (c.drop = 0 → c.stored = .absent) ∧
  (c.drop ≠ 0 → st.entry c.prior c.next = .noRecipe → c.stored = .noRecipe) ∧
  ∀ r, c.drop ≠ 0 → st.entry c.prior c.next = .recipe r → c.stored = .recipe r

/-- The bay works with the yard: LISTEN, LIVE or SAFE. -/
def inYard (s : State) : Prop := s.bay = .listen ∨ s.bay = .live ∨ s.bay = .safe

/-- The bay is in LISTEN or LIVE. -/
def notStopped (s : State) : Prop := s.bay = .listen ∨ s.bay = .live

/-! ### Frames -/

/-- What the work of the circuits and the fill controller leaves alone: all but the pins, the active job,
the circuits, the fill controller, the claims, the records, the events and the sticky flags. -/
def workFrame (s t : State) : Prop :=
  t.bay = s.bay ∧ t.ms = s.ms ∧ t.ownAddr = s.ownAddr ∧ t.config = s.config ∧ t.store = s.store ∧
  t.frontEnd = s.frontEnd ∧ t.jobs.staged = s.jobs.staged ∧ t.jobs.last = s.jobs.last ∧
  t.jobs.previous = s.jobs.previous ∧ t.peers = s.peers ∧ t.line = s.line ∧ t.safety = s.safety ∧
  t.leaveTimer = s.leaveTimer ∧ t.port = s.port ∧ t.tie = s.tie ∧ t.drawn = s.drawn ∧
  t.pending = s.pending

/-- The claims and the unit's own values but the claim of one consumer. -/
def claimsFrame (k : Consumer) (s t : State) : Prop :=
  (∀ m, m ≠ k → t.claim m = s.claim m) ∧ (∀ q, t.adm.eff q = s.adm.eff q) ∧
  t.adm.tick = s.adm.tick ∧ t.adm.announce = s.adm.announce ∧ t.adm.listen = s.adm.listen ∧
  t.adm.intentCount = s.adm.intentCount

/-- The job does not end with compartment `i`: another one is not terminal (R21). -/
def jobGoesOn (s : State) (i : Nat) : Prop :=
  ∃ k c, s.comp? k = some c ∧ k ≠ i ∧ c.state.terminal = false

/-- The record of compartment `i`, as it ended, laid out as chapter 12.5 (R166): the header of 12 bytes, the
step entries, the fill entry, the closing status. -/
def recordLaidOut (record : List Byte) (tag : Count) (i : Nat) (c : Comp) : Prop :=
  record.length = 16 + 16 * c.entries.length + 12 * c.fillCount ∧
  countAt record 0 = tag ∧ byteAt record 4 = i % 256 ∧ byteAt record 5 = c.loaded.drop % 256 ∧
  byteAt record 6 = c.loaded.prior % 256 ∧ byteAt record 7 = c.loaded.next % 256 ∧
  byteAt record 8 = (match c.loaded.stored with
    | .recipe n => n % 256
    | .noRecipe => 255
    | .absent => 255) ∧
  byteAt record 9 = (match c.washedBy with
    | none => 0
    | some .a => 1
    | some .b => 2) ∧
  wordAt record 10 = record.length % 65536 ∧
  record.drop 12 =
    c.entries.flatMap StepEntry.bytes ++
      (match c.fillEntry with
        | some e => e.bytes
        | none => []) ++
      [BitVec.ofNat 8 c.state.code, BitVec.ofNat 8 c.reason.code, BitVec.ofNat 8 c.entries.length,
        BitVec.ofNat 8 c.fillCount]

/-- The record of compartment `i`, ended as `c`, went to the certificate queue (R166, R167). In LISTEN, LIVE
and SAFE, with room in the event queue, CERT_READY and then COMP_ENDED were raised, with a STEP_ENDED at
most before them (R20, R42). -/
def recordAdded (i : Nat) (c : Comp) (s t : State) : Prop :=
  ∃ (j : ActiveJob) (record : List Byte), s.jobs.active = some j ∧ recordLaidOut record j.tag i c ∧
    t.certs.records = s.certs.records ++ [record] ∧
    t.certs.reservedRecords = s.certs.reservedRecords - 1 ∧
    t.certs.reservedBytes = s.certs.reservedBytes - 252 ∧
    (inYard s → s.events.records.length + 3 ≤ 32 →
      ∃ (before : List Event) (a b : Event),
        t.events.records = s.events.records ++ before ++ [a, b] ∧ before.length ≤ 1 ∧
        (∀ e ∈ before, e.kind = .stepEnded) ∧
        a.kind = .certReady ∧ a.d0.toNat = i % 256 ∧ a.d1.toNat = record.length % 256 ∧
        a.d2.toNat = t.certs.records.length % 256 ∧ a.time = s.ms ∧
        b.kind = .compEnded ∧ b.d0.toNat = i % 256 ∧ b.d1.toNat = c.state.code ∧
        b.d2.toNat = c.reason.code ∧ b.time = s.ms)

/-- The revolutions of a compartment of circuit `c` once those of its step `st` are added: they count in a
RINSE, WASH or SANITIZE step (R42, R46). -/
def revolutionsWith (s : State) (c : Side) (st : Step) (k : Comp) : Nat :=
  if st.kind = .rinse ∨ st.kind = .wash ∨ st.kind = .sanitize then
    min 65535 (k.revolutions + min 65535 ((s.circ c).rcd.pulses / s.pulsesPerRev c))
  else k.revolutions

/-- The revolutions of circuit `c`'s step `st` were added to its compartment's (R42, R43, R46, R50). -/
def revolutionsAdded (s t : State) (c : Side) (st : Step) : Prop :=
  ∀ k, s.comp? (s.circ c).comp = some k →
    ∃ k', t.comp? (s.circ c).comp = some k' ∧ k'.revolutions = revolutionsWith s c st k

/-- STEP_ENDED was raised first for circuit `c`'s step, with its outcome (R42, R43, R50, R78). -/
def stepEndRaised (s t : State) (c : Side) (outcome : ResultCode) : Prop :=
  inYard s → s.events.records.length < 32 →
    ∃ (e : Event) (rest : List Event), t.events.records = s.events.records ++ e :: rest ∧
      e.kind = .stepEnded ∧ e.d0.toNat = (s.circ c).comp % 256 ∧
      e.d1.toNat = (s.circ c).step % 256 ∧ e.d2.toNat = outcome.code ∧ e.time = s.ms

/-- What the yard line's frames and ages leave alone: all but the line, the peers, the events and the
sticky flags. -/
def lineFrame (s t : State) : Prop :=
  t.bay = s.bay ∧ t.ms = s.ms ∧ t.ownAddr = s.ownAddr ∧ t.config = s.config ∧ t.store = s.store ∧
  t.frontEnd = s.frontEnd ∧ t.jobs = s.jobs ∧ t.circA = s.circA ∧ t.circB = s.circB ∧
  t.fill = s.fill ∧ t.certs = s.certs ∧ t.safety = s.safety ∧ t.leaveTimer = s.leaveTimer ∧
  t.port = s.port ∧ t.tie = s.tie ∧ t.drawn = s.drawn ∧ t.pending = s.pending

/-- Nothing queued waits for a drop of circuit `c` (R15). -/
def nothingQueued (s : State) (c : Side) : Prop :=
  ∀ m k, s.comp? m = some k → k.state = .queued → servesDrop c k.loaded.drop = false

/-- Compartment `i` is the lowest-numbered QUEUED one of circuit `c`'s drops (R15). -/
def nextQueued (s : State) (c : Side) (i : Nat) (k : Comp) : Prop :=
  s.comp? i = some k ∧ k.state = .queued ∧ servesDrop c k.loaded.drop = true ∧
  ∀ m q, m < i → s.comp? m = some q → q.state = .queued → servesDrop c q.loaded.drop = false

/-- Circuit `c` has taken compartment `i` of `s`, its hose not connected: WAIT_DROP with the drop selector
set and the drop-wait timer running, none for a limit of 0 (R14, R15, R17, R33). -/
def circTook (s t : State) (c : Side) (i : Nat) (k : Comp) : Prop :=
  t.comp? i =
    some { k with
      state := .waitDrop, owner := some (sideConsumer c), washedBy := some c } ∧
  (t.circ c).state = .waitDrop ∧ (t.circ c).comp = i ∧ (t.circ c).step = 0 ∧
  (t.circ c).dropSel = k.loaded.drop ∧ (t.circ c).entries = [] ∧ (t.circ c).carried = none ∧
  (t.circ c).dropWait =
    (if s.cfg.dropWaitLimit = 0 then none else some (s.cfg.dropWaitLimit * 1000))

/-- The fill controller has taken compartment `i` of `s`, its hose not connected, with the trails and the
rest of the order as given: WAIT_DROP with its line, preset and selector (R14, R16, R17, R85). -/
def fillTook (s t : State) (trails : Trails) (i : Nat) (k : Comp) (rest : List Nat) : Prop :=
  t.comp? i = some { k with state := .waitDrop, owner := some .fill } ∧
  t.fill =
    { FillController.reset trails k.loaded.drop with
      state := .waitDrop
      comp := i
      line := k.loaded.fillLine
      preset := k.loaded.fillVolume
      order := rest
      dropWait :=
        if s.cfg.dropWaitLimit = 0 then none else some (s.cfg.dropWaitLimit * 1000) }

/-- Circuit `x` has entered PAUSED, as `y`: its step's timers stopped, its pause count one higher, its pause
timer from zero, the rest of its step's counts kept (R47). -/
def pausedFrom (x y : Circuit) : Prop :=
  y.state = .paused ∧ y.pause = some 0 ∧ y.stepSecond = none ∧ y.stallMonitor = none ∧
  y.stallLimit = none ∧ y.sump = none ∧
  y.rcd = { x.rcd with pauses := min (x.rcd.pauses + 1) 255 } ∧ y.samples = x.samples ∧
  y.comp = x.comp ∧ y.step = x.step ∧ y.entries = x.entries ∧ y.entered = x.entered ∧
  y.retrying = x.retrying ∧ y.dropSel = x.dropSel

/-- Circuit `c` has entered RUN of its step `st`, its counts kept after a pause of at most the hold limit and
restarted after a longer one (R36, R44, R48). -/
def runEntered (s t : State) (c : Side) (st : Step) : Prop :=
  (t.circ c).state = .running ∧ (t.circ c).stepSecond = some 1000 ∧
  (t.circ c).stallMonitor = some s.cfg.stallTime ∧ (t.circ c).pause = none ∧
  (t.circ c).spinning = false ∧ (t.circ c).comp = (s.circ c).comp ∧
  (t.circ c).step = (s.circ c).step ∧ (t.circ c).entries = (s.circ c).entries ∧
  ((∀ p, (s.circ c).pause = some p → p ≤ st.holdLimit * 1000) →
    (t.circ c).rcd = (s.circ c).rcd ∧ (t.circ c).samples = (s.circ c).samples) ∧
  ∀ p, (s.circ c).pause = some p → st.holdLimit * 1000 < p →
    (t.circ c).rcd = { (s.circ c).rcd with elapsed := 0, good := 0, dose256 := 0 } ∧
    (t.circ c).samples = ⟨0, 0, 0⟩

/-- Circuit `c` is done with compartment `i`, which ended with the given entry list, state and reason and
its record appended; the circuit is IDLE with need zero, its step record kept (the model's reading,
notes/assumptions/18.md), and all else but the fill is as it was (R17, R20, R22, R49). -/
def circEnded (s t : State) (c : Side) (i : Nat) (k : Comp) (entries : List StepEntry)
    (st : CompState) (reason : ResultCode) : Prop :=
  t.comp? i =
    some { k with entries := entries, state := st, owner := none, reason := reason } ∧
  (∀ m, m ≠ i → t.comp? m = s.comp? m) ∧
  recordAdded i { k with entries := entries, state := st, owner := none, reason := reason } s t ∧
  (t.circ c).state = .idle ∧ (t.circ c).comp = 0 ∧ (t.circ c).step = 0 ∧ (t.circ c).entries = [] ∧
  (t.circ c).carried = none ∧ (t.circ c).dropWait = none ∧ (t.circ c).stepSecond = none ∧
  (t.circ c).runOut = none ∧ (t.circ c).pause = none ∧ (t.circ c).dropSel = (s.circ c).dropSel ∧
  (t.circ c).rcd = (s.circ c).rcd ∧ (∀ d, d ≠ c → t.circ d = s.circ d) ∧
  (t.claim (sideConsumer c)).need = .zero ∧ claimsFrame (sideConsumer c) s t ∧
  t.sticky = s.sticky ∧ workFrame s t

/-- Circuit `c` has entered RUN_OUT carrying an outcome, its compartment `i` ENDING and its need the
drain it holds (R49). -/
def runOutBegun (s t : State) (c : Side) (i : Nat) (carried : Carried) : Prop :=
  (t.circ c).state = .runOut ∧ (t.circ c).carried = some carried ∧
  (t.circ c).runOut = some (s.cfg.runOutTime * 1000) ∧ (t.circ c).stepSecond = none ∧
  (t.circ c).stallMonitor = none ∧ (t.circ c).stallLimit = none ∧ (t.circ c).sump = none ∧
  (t.circ c).heldQ = 0 ∧ (t.circ c).spinning = false ∧ (t.circ c).rcd = (s.circ c).rcd ∧
  (t.claim (sideConsumer c)).need = ⟨0, 0, (s.claim (sideConsumer c)).committed.drain, 0⟩ ∧
  (∀ k, s.comp? i = some k →
    ∃ k', t.comp? i = some k' ∧ k'.state = .ending ∧ k'.owner = some (sideConsumer c) ∧
      k'.reason = k.reason ∧ k'.entries = k.entries ∧ k'.loaded = k.loaded) ∧
  (∀ m, m ≠ i → t.comp? m = s.comp? m) ∧ (∀ d, d ≠ c → t.circ d = s.circ d) ∧
  claimsFrame (sideConsumer c) s t ∧ t.fill = s.fill ∧ t.certs = s.certs ∧ t.sticky = s.sticky ∧
  workFrame s t

/-- The fill entry that the fill in progress closes with an outcome, a volume at close and the trails as
given (R96). -/
def fillEntryRight (s : State) (e : FillEntry) (outcome : ResultCode) (atClose : Nat)
    (trails : Trails) : Prop :=
  e.line = s.fill.line ∧ e.outcome = outcome ∧ e.preset = s.fill.preset ∧
  e.finalVolume = s.fill.pulses / s.cfg.fillMeter ∧ e.volumeAtClose = atClose ∧
  (s.fill.flowed = true → e.trailUsed = s.fill.trailUsed) ∧
  (s.fill.flowed = false → e.trailUsed = trails.get s.fill.line) ∧
  e.interruptions = s.fill.interruptions ∧ e.duration = min 65535 (s.fill.duration / 1000)

/-- The outcome of a fill cut by an abort or a drop loss before its run-out: SHORT from AWAIT_SKID with
nothing delivered, else by its volume (R22, R96, R99; nothing delivered: notes/assumptions/38.md). -/
def cutOutcome (s : State) : ResultCode :=
  if s.fill.state = .awaitSkid ∧ s.fill.pulses / s.cfg.fillMeter = 0 then .short
  else volumeOutcome s.fill.preset s.cfg.fillTolerance (s.fill.pulses / s.cfg.fillMeter)

/-- The fill controller is done with compartment `i`, which ended with a fill entry of the given outcome
and volume at close, its record appended; the line is released and the controller IDLE, with its reset
values there but for the trails and the selector (the model's reading, notes/assumptions/18.md; R20, R90,
R94, R96). -/
def fillEnded (s t : State) (i : Nat) (k : Comp) (st : CompState) (reason outcome : ResultCode)
    (atClose : Nat) (trails : Trails) : Prop :=
  (∃ e : FillEntry,
    t.comp? i =
      some { k with fillEntry := some e, state := st, owner := none, reason := reason } ∧
    recordAdded i { k with fillEntry := some e, state := st, owner := none, reason := reason } s t ∧
    fillEntryRight s e outcome atClose trails) ∧
  (∀ m, m ≠ i → t.comp? m = s.comp? m) ∧ t.fill = .reset trails s.fill.dropSel ∧
  t.adm.claimFill.need = .zero ∧
  (s.adm.claimFill.need ≠ .zero →
    t.adm.claimFill.state = .idle ∧ t.adm.claimFill.committed = .zero) ∧
  (∀ d, t.circ d = s.circ d) ∧ claimsFrame .fill s t ∧ t.sticky = s.sticky ∧ workFrame s t

/-- The fill controller is done with compartment `i` without a fill entry, DEMAND never asserted for it (R17,
R22, R24, R96). -/
def fillLeft (s t : State) (i : Nat) (k : Comp) (st : CompState) (reason : ResultCode) : Prop :=
  t.comp? i = some { k with state := st, owner := none, reason := reason } ∧
  (∀ m, m ≠ i → t.comp? m = s.comp? m) ∧
  recordAdded i { k with state := st, owner := none, reason := reason } s t ∧
  t.fill = .reset s.fill.trails s.fill.dropSel ∧ t.adm.claimFill.need = .zero ∧
  (∀ d, t.circ d = s.circ d) ∧ claimsFrame .fill s t ∧ t.sticky = s.sticky ∧ workFrame s t

/-- The circuit's PASS sends compartment `i` to the end of the FILL_WAIT order, the fill controller busy; the
circuit is IDLE with need zero (R16, R19, R49). -/
def sentToFill (s t : State) (c : Side) (i : Nat) (k : Comp) (entries : List StepEntry) : Prop :=
  t.fill = { s.fill with order := s.fill.order ++ [i] } ∧
  t.comp? i = some { k with entries := entries, state := .fillWait, owner := none } ∧
  (∀ m, m ≠ i → t.comp? m = s.comp? m) ∧ (t.circ c).state = .idle ∧ (t.circ c).comp = 0 ∧
  (t.circ c).entries = [] ∧ (∀ d, d ≠ c → t.circ d = s.circ d) ∧
  (t.claim (sideConsumer c)).need = .zero ∧ claimsFrame (sideConsumer c) s t ∧
  t.certs = s.certs ∧ t.sticky = s.sticky ∧ workFrame s t

/-! ### Shedding (R119 to R121) -/

/-- This bay is the one to shed in a quantity of effective capacity `eff`, its newest-commit age being `age`:
the committed draws exceed it, this bay holds some, and every other holder is older, or as old with a lower
address (R120). -/
def shedDue (s : State) (eff age : Nat) (q : Quantity) : Prop :=
  eff < peersCommitted s.peers q + s.adm.ownCommitted q ∧ 0 < s.adm.ownCommitted q ∧
  ∀ p ∈ s.peers, p.committedIn q = 0 ∨ age < p.newestAge ∨
    (age = p.newestAge ∧ p.address.toNat < (s.ownAddr.getD 0).toNat)

/-- An evaluation sheds nothing: this bay is the one to shed neither in HEAT nor in FLOW (R119, R122). -/
def noShed (s : State) (eff : Quantity → Nat) (age : Nat) : Prop :=
  ¬shedDue s (eff .heat) age .heat ∧ ¬shedDue s (eff .flow) age .flow

/-- An evaluation at tick count `now` sheds the claim of circuit `c` in a quantity, HEAT before FLOW: the claim
that holds it and has the latest commit tick of those that do (R119, R121). -/
def shedsNow (s : State) (eff : Quantity → Nat) (age : Nat) (now : Count) (c : Side)
    (q : Quantity) : Prop :=
  shedDue s (eff q) age q ∧ (q = .heat ∨ (q = .flow ∧ ¬shedDue s (eff .heat) age .heat)) ∧
  0 < (s.claim (sideConsumer c)).committed.amount q ∧
  ∀ d, d ≠ c → 0 < (s.claim (sideConsumer d)).committed.amount q →
    ∃ m n, (s.claim (sideConsumer c)).commitTick = some m ∧
      (s.claim (sideConsumer d)).commitTick = some n ∧ (now - m).toNat < (now - n).toNat

/-- Circuit `c` was told of its shed: a step in RUN is PAUSED, any other and the other circuit are as they
were; `e` is the CLAIM_SHED raised (R47, R121). -/
def shedTold (s t : State) (c : Side) (q : Quantity) (e : Event) : Prop :=
  ((s.circ c).state = .running → pausedFrom (s.circ c) (t.circ c)) ∧
  ((s.circ c).state ≠ .running → t.circ c = s.circ c) ∧ (∀ d, d ≠ c → t.circ d = s.circ d) ∧
  ((s.claim (sideConsumer c)).state = .intent → t.adm.settle = none) ∧
  ((s.claim (sideConsumer c)).state ≠ .intent → t.adm.settle = s.adm.settle) ∧
  e.kind = .claimShed ∧
  e.d0.toNat = (match c with
    | .a => 1
    | .b => 2) ∧
  e.d1.toNat = (if q = .heat then 1 else 2) ∧ e.d2.toNat = (s.circ c).comp % 256 ∧ e.time = s.ms

/-- The need of a claim exceeds the effective capacity of HEAT, FLOW or DRAIN on its own (R109). -/
def oversized (s : State) (k : Consumer) : Prop :=
  s.adm.effHeat < (s.claim k).need.heat ∨ s.adm.effFlow < (s.claim k).need.flow ∨
  s.adm.effDrain < (s.claim k).need.drain

/-! ### Work cut from outside (R22, R24) -/

/-- The entry list of circuit `c` with the entry of its step `st` closed CUT, when the step has entered RUN
(R50). -/
def cutEntries (s : State) (c : Side) (st : Step) : List StepEntry :=
  if (s.circ c).entered = true then (s.circ c).entries ++ [s.entryOf c st .cut]
  else (s.circ c).entries

/-- The compartment `k` of circuit `c` with the revolutions of its cut step `st` (R50). -/
def cutComp (s : State) (c : Side) (st : Step) (k : Comp) : Comp :=
  { k with
    revolutions := if (s.circ c).entered = true then revolutionsWith s c st k else k.revolutions }

/-- A compartment `i` in WASHING on circuit `c`, at step `step`, was cut: its step ends CUT and the circuit
runs out, carrying `st` and `reason`; PAUSED in SAFE, or with a run-out time of 0, it ends at once (R22, R24,
R49, R50). -/
def washingCut (s t : State) (c : Side) (i : Nat) (k : Comp) (step : Step) (st : CompState)
    (reason : ResultCode) : Prop :=
  ((s.circ c).entered = true → stepEndRaised s t c .cut) ∧
  ((s.circ c).state ≠ .paused ∨ s.bay ≠ .safe → s.cfg.runOutTime ≠ 0 →
    runOutBegun s t c i (.ends st reason) ∧ (t.circ c).entries = cutEntries s c step ∧
    ((s.circ c).entered = true → revolutionsAdded s t c step) ∧
    ((s.circ c).entered = false → t.events = s.events)) ∧
  ((s.circ c).state = .paused ∧ s.bay = .safe ∨ s.cfg.runOutTime = 0 →
    jobGoesOn s i → nothingQueued s c → s.fill.state ≠ .idle ∨ s.fill.order = [] →
    t.fill = s.fill ∧
    circEnded s t c i (cutComp s c step k) (cutEntries s c step) st reason)

/-- A compartment `i` in FILLING was cut: FLOWING closes and CLOSING takes the close kind of the cut, the
compartment ENDING; else it ends at once, with a fill entry when DEMAND was asserted, SHORT from AWAIT_SKID
with nothing delivered (R22, R24, R99; nothing delivered: notes/assumptions/38.md). -/
def fillingCut (s t : State) (i : Nat) (k : Comp) (st : CompState) (reason : ResultCode)
    (close : CloseKind) : Prop :=
  (s.fill.state = .flowing ∨ s.fill.state = .closing →
    t.comp? i = some { k with state := .ending, owner := some .fill } ∧
    (∀ m, m ≠ i → t.comp? m = s.comp? m) ∧ t.circA = s.circA ∧ t.circB = s.circB ∧
    t.adm = s.adm ∧ t.certs = s.certs ∧ t.events = s.events ∧ t.sticky = s.sticky ∧
    workFrame s t) ∧
  (s.fill.state = .flowing → s.fill.runOut = none →
    t.fill =
      { s.fill with
        state := .closing
        closeKind := close
        volumeAtClose := s.fill.pulses / s.cfg.fillMeter
        skid := none
        noFlow := none
        runOut := some (s.cfg.fillRunOut * 1000) }) ∧
  (s.fill.state = .closing → s.fill.closeKind = .normal ∨ s.fill.closeKind = .high →
    t.fill = { s.fill with closeKind := close }) ∧
  (s.fill.state = .closing → s.fill.closeKind = .abort ∨ s.fill.closeKind = .dropLost →
    t.fill = s.fill) ∧
  (s.fill.state = .admitting ∨ s.fill.state = .awaitSkid ∨ s.fill.state = .interrupted →
    jobGoesOn s i → s.fill.order = [] →
    (s.fill.started = true →
      fillEnded s t i k st reason (cutOutcome s) s.fill.volumeAtClose s.fill.trails) ∧
    (s.fill.started = false → fillLeft s t i k st reason))

/-! ### The end of a job (R20, R21) -/

/-- Every compartment of a job of `cs`, none of them begun, ended in order with one state and reason, a
record, CERT_READY and COMP_ENDED each; then the job ended with its result and JOB_ENDED (R20, R21, R166,
R167). -/
def jobEndedAtOnce (s t : State) (tag : Count) (cs : List LoadedComp) (st : CompState)
    (reason : ResultCode) (result : JobResult) : Prop :=
  t.jobs = ⟨none, none, result, s.jobs.last⟩ ∧
  (∃ records, t.certs.records = s.certs.records ++ records ∧ records.length = cs.length ∧
    ∀ i c, cs[i]? = some c →
      ∃ record, records[i]? = some record ∧
        recordLaidOut record tag (i + 1) { Comp.promoted c with state := st, reason := reason }) ∧
  (inYard s → s.events.records.length + 2 * cs.length + 1 ≤ 32 →
    ∃ events e, t.events.records = s.events.records ++ events ++ [e] ∧
      events.length = 2 * cs.length ∧ e.kind = .jobEnded ∧ e.d0.toNat = result.code ∧
      e.d1.toNat = 0 ∧ e.d2.toNat = 0 ∧ e.time = s.ms ∧
      ∀ i, i < cs.length →
        ∃ a b, events[2 * i]? = some a ∧ events[2 * i + 1]? = some b ∧
          a.kind = .certReady ∧ a.d0.toNat = i + 1 ∧ a.d1.toNat = 16 ∧
          a.d2.toNat = (s.certs.records.length + i + 1) % 256 ∧ a.time = s.ms ∧
          b.kind = .compEnded ∧ b.d0.toNat = i + 1 ∧ b.d1.toNat = st.code ∧
          b.d2.toNat = reason.code ∧ b.time = s.ms)

/-- The job ended with compartment `i`, which ended in the state `st` with no fill entry or with one of the
outcome `fill`, the others having ended before it, and no job staged: PASS when every compartment is DONE or
SKIPPED and every fill FILLED, else FAIL; and JOB_ENDED with the number of compartments DONE (R21). -/
def jobEndedWith (s t : State) (i : Nat) (st : CompState) (fill : Option ResultCode) : Prop :=
  t.jobs.active = none ∧ t.jobs.staged = none ∧ t.jobs.previous = s.jobs.last ∧
  t.fill.order = [] ∧ t.jobs.last ≠ .none ∧
  (t.jobs.last = .pass ↔
    (st = .done ∨ st = .skipped) ∧ (fill = none ∨ fill = some .filled) ∧
      ∀ m q, m ≠ i → s.comp? m = some q →
        (q.state = .done ∨ q.state = .skipped) ∧
          ∀ e, q.fillEntry = some e → e.outcome = .filled) ∧
  (inYard s → s.events.records.length + 3 ≤ 32 →
    ∃ before e, t.events.records = s.events.records ++ before ++ [e] ∧ before.length = 2 ∧
      e.kind = .jobEnded ∧ e.d0.toNat = t.jobs.last.code ∧
      e.d1.toNat =
        ((s.comps.countP fun q => decide (q.state = .done)) + (if st = .done then 1 else 0)) % 256 ∧
      e.d2.toNat = 0 ∧ e.time = s.ms)

/-! ### Compartments ended by ABORT_JOB and by RESET (R23, R27) -/

/-- Compartments that meet `p` before number `i`. -/
def numberBefore (s : State) (p : Comp → Bool) (i : Nat) : Nat := (s.comps.take (i - 1)).countP p

/-- Records were written for the compartments that meet `p`, in their order, each laid out as the compartment
became by `q`; each used up one reserved record (R166, R167). -/
def recordsWritten (s t : State) (p : Comp → Bool) (q : Nat → Comp → Comp → Prop) : Prop :=
  ∃ written, t.certs.records = s.certs.records ++ written ∧ written.length = s.comps.countP p ∧
    t.certs.reservedRecords = s.certs.reservedRecords - written.length ∧
    t.certs.reservedBytes = s.certs.reservedBytes - 252 * written.length ∧
    ∀ (j : ActiveJob) (i : Nat) (k : Comp), s.jobs.active = some j → s.comp? i = some k →
      p k = true →
      ∃ record k', written[numberBefore s p i]? = some record ∧ q i k k' ∧
        recordLaidOut record j.tag i k'

/-- Compartment `i`, `k`, as the entry to RESETTING ends it: ABORTED(RESET) with the entries its circuit has
closed, and with the fill entry of a fill that asserted DEMAND, its outcome by volume (R27). -/
def resetLeaves (s : State) (i : Nat) (k k' : Comp) : Prop :=
  k'.state = .aborted ∧ k'.reason = .reset ∧ k'.owner = none ∧ k'.loaded = k.loaded ∧
  k'.washedBy = k.washedBy ∧
  ((∀ c, (s.circ c).comp ≠ i) → k'.entries = k.entries) ∧
  (∀ c, (s.circ c).comp = i → (∀ d, d ≠ c → (s.circ d).comp ≠ i) →
    k'.entries = (s.circ c).entries) ∧
  (s.fill.comp ≠ i ∨ s.fill.started = false → k'.fillEntry = k.fillEntry) ∧
  (s.fill.comp = i → s.fill.started = true →
    ∃ e, k'.fillEntry = some e ∧
      fillEntryRight s e
        (volumeOutcome s.fill.preset s.cfg.fillTolerance (s.fill.pulses / s.cfg.fillMeter))
        s.fill.volumeAtClose s.fill.trails)

/-- Circuit `c` runs out when its compartment is cut: not PAUSED in SAFE, and a run-out to count (R22). -/
def cutRunsOut (s : State) (c : Side) : Bool :=
  !(decide ((s.circ c).state = .paused) && decide (s.bay = .safe)) && decide (s.cfg.runOutTime ≠ 0)

/-- Whether an abort makes a compartment terminal at once, by its state and its owner's (R22). -/
def abortEndsNow (s : State) (k : Comp) : Bool :=
  match k.state with
  | .queued => true
  | .waitDrop => true
  | .fillWait => true
  | .washing =>
    (match k.owner with
      | some .a => !cutRunsOut s .a
      | some .b => !cutRunsOut s .b
      | some .fill => false
      | none => false)
  | .filling => decide (s.fill.state ≠ .flowing) && decide (s.fill.state ≠ .closing)
  | .ending => false
  | .done => false
  | .skipped => false
  | .failed => false
  | .rejected => false
  | .aborted => false

/-- A compartment made ABORTED(HOST) (R13, R22). -/
def hostAborted (k : Comp) : Comp := { k with state := .aborted, owner := none, reason := .host }

/-- Compartment `k` as ABORT_JOB leaves it, by its state and its owner's (R22, R23, R50, R99). -/
def abortLeaves (s : State) (k k' : Comp) : Prop :=
  (k.state = .ending ∨ k.state.terminal = true → k' = k) ∧
  (k.state = .queued ∨ k.state = .fillWait → k' = hostAborted k) ∧
  (∀ c, k.state = .waitDrop → k.owner = some (sideConsumer c) →
    k' = hostAborted { k with entries := (s.circ c).entries }) ∧
  (k.state = .waitDrop → k.owner = some .fill → k' = hostAborted k) ∧
  (∀ c st, k.state = .washing → k.owner = some (sideConsumer c) → s.stepOf c = some st →
    (cutRunsOut s c = true → k' = { cutComp s c st k with state := .ending }) ∧
    (cutRunsOut s c = false →
      k' = hostAborted { cutComp s c st k with entries := cutEntries s c st })) ∧
  (k.state = .filling → s.fill.state = .flowing ∨ s.fill.state = .closing →
    k' = { k with state := .ending, owner := some .fill }) ∧
  (k.state = .filling → s.fill.state ≠ .flowing → s.fill.state ≠ .closing →
    (s.fill.started = false → k' = hostAborted k) ∧
    (s.fill.started = true →
      ∃ e, k' = hostAborted { k with fillEntry := some e } ∧
        fillEntryRight s e (cutOutcome s) s.fill.volumeAtClose s.fill.trails))

/-- Every compartment of the job in hand has the owner its state calls for, which serves it and no other, and
the FILL_WAIT order holds each of its compartments once (R13, R15, R16). -/
def ownersRight (s : State) : Prop :=
  (∀ i k, s.comp? i = some k →
    (k.state = .waitDrop →
      (∃ c, k.owner = some (sideConsumer c) ∧ (s.circ c).comp = i ∧ (s.circ c).state = .waitDrop) ∨
      (k.owner = some .fill ∧ s.fill.comp = i ∧ s.fill.state = .waitDrop ∧
        s.fill.started = false)) ∧
    (k.state = .washing →
      ∃ c, k.owner = some (sideConsumer c) ∧ (s.circ c).comp = i ∧ s.stepOf c ≠ none ∧
        (s.circ c).runOut = none ∧
        ((s.circ c).state = .running ∨ (s.circ c).state = .admitting ∨
          (s.circ c).state = .paused)) ∧
    (k.state = .filling → k.owner = some .fill ∧ s.fill.comp = i ∧ s.fill.state ≠ .idle ∧
      s.fill.state ≠ .waitDrop ∧ (s.fill.state = .flowing → s.fill.runOut = none))) ∧
  s.fill.order.Nodup ∧ ∀ m ∈ s.fill.order, ∃ k, s.comp? m = some k ∧ k.state = .fillWait

/-- What ABORT_JOB makes of the circuits and of the fill controller, none of which takes a compartment: a
circuit whose compartment ends at once is IDLE, one that runs out carries ABORTED(HOST), and so on for the
fill; one that serves nothing to abort is as it was (R22, R23, R49, R99). -/
def abortFrees (s t : State) : Prop :=
  (∀ (c : Side) (i : Nat) (k : Comp), s.comp? i = some k → k.owner = some (sideConsumer c) →
    (k.state = .waitDrop ∨ (k.state = .washing ∧ cutRunsOut s c = false) →
      (t.circ c).state = .idle ∧ (t.circ c).comp = 0 ∧
      (t.claim (sideConsumer c)).need = .zero) ∧
    (∀ st, k.state = .washing → cutRunsOut s c = true → s.stepOf c = some st →
      (t.circ c).state = .runOut ∧ (t.circ c).carried = some (.ends .aborted .host) ∧
      (t.circ c).runOut = some (s.cfg.runOutTime * 1000) ∧ (t.circ c).comp = i ∧
      (t.circ c).entries = cutEntries s c st ∧
      (t.claim (sideConsumer c)).need =
        ⟨0, 0, (s.claim (sideConsumer c)).committed.drain, 0⟩)) ∧
  (∀ c : Side,
    (∀ i k, s.comp? i = some k → k.owner = some (sideConsumer c) →
      k.state = .ending ∨ k.state.terminal = true) →
    t.circ c = s.circ c ∧ t.claim (sideConsumer c) = s.claim (sideConsumer c)) ∧
  t.fill.order = [] ∧
  (∀ i k, s.comp? i = some k → k.owner = some .fill →
    k.state = .waitDrop ∨ k.state = .filling →
    (abortEndsNow s k = true →
      t.fill = .reset s.fill.trails s.fill.dropSel ∧ t.adm.claimFill.need = .zero) ∧
    (s.fill.state = .flowing →
      t.fill =
        { s.fill with
          state := .closing
          closeKind := .abort
          volumeAtClose := s.fill.pulses / s.cfg.fillMeter
          skid := none
          noFlow := none
          runOut := some (s.cfg.fillRunOut * 1000)
          order := [] }) ∧
    (s.fill.state = .closing → s.fill.closeKind = .normal ∨ s.fill.closeKind = .high →
      t.fill = { s.fill with closeKind := .abort, order := [] }) ∧
    (s.fill.state = .closing → s.fill.closeKind = .abort ∨ s.fill.closeKind = .dropLost →
      t.fill = { s.fill with order := [] })) ∧
  ((∀ i k, s.comp? i = some k → k.state = .waitDrop ∨ k.state = .filling → k.owner ≠ some .fill) →
    t.fill = { s.fill with order := [] } ∧ t.adm.claimFill = s.adm.claimFill)

/-! ### Outputs and SAFE -/

/-- A circuit's part of the halt snapshot, as the circuit stands: its counts in ADMIT, RUN and PAUSED, else 0
(R177). -/
def circShown (x : Circuit) (p : CircuitSnapshot) : Prop :=
  p.comp = x.comp ∧ p.step = x.step ∧ p.state = x.state ∧
  (x.state = .admitting ∨ x.state = .running ∨ x.state = .paused →
    p.dose = x.rcd.dose256 / 256 ∧ p.elapsed = x.rcd.elapsed ∧ p.good = x.rcd.good) ∧
  (x.state = .idle ∨ x.state = .waitDrop ∨ x.state = .runOut →
    p.dose = 0 ∧ p.elapsed = 0 ∧ p.good = 0)

/-- The fill controller at the entry into SAFE: AWAIT_SKID, FLOWING, and CLOSING of kind NORMAL or HIGH become
INTERRUPTED with their timers stopped and the line released, close kind, volume at close and trail used kept;
in IDLE, WAIT_DROP, ADMIT, INTERRUPTED and CLOSING of kind ABORT or DROP_LOST nothing changes (R97). -/
def fillAtSafe (s t : State) : Prop :=
  (s.fill.state = .awaitSkid ∨ s.fill.state = .flowing ∨
      (s.fill.state = .closing ∧ (s.fill.closeKind = .normal ∨ s.fill.closeKind = .high)) →
    t.fill = { s.fill with state := .interrupted, skid := none, noFlow := none, runOut := none } ∧
    t.adm.claimFill.need = .zero ∧
    (s.adm.claimFill.need ≠ .zero → t.adm.claimFill.state = .idle)) ∧
  (s.fill.state = .idle ∨ s.fill.state = .waitDrop ∨ s.fill.state = .admitting ∨
      s.fill.state = .interrupted ∨
      (s.fill.state = .closing ∧ (s.fill.closeKind = .abort ∨ s.fill.closeKind = .dropLost)) →
    t.fill = s.fill ∧ t.adm.claimFill.need = s.adm.claimFill.need)

/-- The outputs of R176 at their de-energised levels. -/
def outputsOff (s : State) : Prop :=
  (∀ c, s.supplyOpen c = false ∧ s.mediumPin c = 0 ∧ s.pumpOn c = false ∧
    s.drainClosedPin c = false) ∧
  s.fillValveOpen = false ∧ ∀ line, s.demand line = false

/-- The output override is set in SAFE and RESETTING and nowhere else (R176, R182, R196). -/
def overrideRight (s : State) : Prop :=
  s.safety.override = true ↔ (s.bay = .safe ∨ s.bay = .resetting)

/-- The causes, the first cause and the snapshot are there in SAFE alone (R173, R177). -/
def causesRight (s : State) : Prop :=
  (s.safety.first.isSome = true ↔ s.bay = .safe) ∧
  (s.safety.snapshot.isSome = true ↔ s.bay = .safe) ∧
  (s.bay ≠ .safe → s.safety.causes = .empty)

/-! ### Bounds -/

/-- The event queue holds at most 32 records (R193). -/
def eventsBounded (s : State) : Prop := s.events.records.length ≤ 32

/-- The line-health window holds at most 32 outcomes (R159), and the line is GOOD only below 8 bad
outcomes and DEGRADED only above 2 (R160). -/
def lineHealthy (s : State) : Prop :=
  s.line.window.length ≤ 32 ∧ (s.line.degraded = false → s.line.badCount < 8) ∧
  (s.line.degraded = true → 2 < s.line.badCount)

/-- The trail values lie in 0..200 (R95). -/
def trailsBounded (s : State) : Prop :=
  s.fill.trails.t1 ≤ 200 ∧ s.fill.trails.t2 ≤ 200 ∧ s.fill.trails.t3 ≤ 200 ∧ s.fill.trails.t4 ≤ 200

/-- The peer table in ascending order of address, no entry for address 0 or for the own address, and
none in SETUP (R133, R134, R142). -/
def peersRight (s : State) : Prop :=
  s.peers.Pairwise (fun p q => p.address.toNat < q.address.toNat) ∧
  (∀ p ∈ s.peers, p.address ≠ 0 ∧ s.ownAddr ≠ some p.address) ∧
  (s.bay = .setup → s.peers = [])

/-- The bay's own books: override, causes, event queue, line health, trails, peer table. -/
def booksRight (s : State) : Prop :=
  overrideRight s ∧ causesRight s ∧ eventsBounded s ∧ lineHealthy s ∧ trailsBounded s ∧ peersRight s

/-! ### Draws -/

/-- The configured capacity of a quantity. -/
def capacity (c : Configuration) : Quantity → Nat
  | .heat => c.capHeat
  | .flow => c.capFlow
  | .drain => c.capDrain

/-- No claim is in INTENT and no settle window runs, but in LIVE (R109, R118). -/
def intentsRight (s : State) : Prop :=
  s.bay ≠ .live → s.adm.settle = none ∧ ∀ k, (s.claim k).state ≠ .intent

/-- The own committed draws stay within the configured capacities (R116), with what that rests on: the
derate percentages, the effective capacities, no draw held in SETUP, intents in LIVE alone. -/
def drawsRight (s : State) : Prop :=
  (∀ q, s.adm.ownCommitted q ≤ capacity s.cfg q) ∧ (∀ q, s.adm.eff q ≤ capacity s.cfg q) ∧
  s.cfg.heatPercent ≤ 100 ∧ s.cfg.flowPercent ≤ 100 ∧ intentsRight s ∧
  (s.bay = .setup → ∀ k, (s.claim k).committed = .zero)

/-! ### Valves -/

/-- A claim found SATISFIED holds exactly what it needs (R106). -/
def satisfiedRight (s : State) : Prop :=
  ∀ k, (s.claim k).state = .satisfied → (s.claim k).committed = (s.claim k).need

/-- In SAFE nothing is committed (R118). -/
def stoppedRight (s : State) : Prop :=
  s.bay = .safe → ∀ k, (s.claim k).committed = .zero ∧ (s.claim k).state ≠ .satisfied

/-- In SETUP and RESETTING there is no job, and the circuits and the fill controller are IDLE (R26, R51,
R102). -/
def restingRight (s : State) : Prop :=
  (s.bay = .setup ∨ s.bay = .resetting) →
    s.jobs.staged = none ∧ s.jobs.active = none ∧ s.fill.state = .idle ∧
    ∀ c, (s.circ c).state = .idle

/-- A circuit in RUN has its claim granted, in LISTEN or LIVE (R33, R34, R47). -/
def runsGranted (s : State) : Prop :=
  ∀ c, (s.circ c).state = .running → (s.claim (sideConsumer c)).granted = true ∧ notStopped s

/-- The fill asks for its line in ADMIT, and has it, in LISTEN or LIVE, in AWAIT_SKID and FLOWING, in
FLOWING with the skid delivering (R86, R87, R88). -/
def fillGranted (s : State) : Prop :=
  (s.fill.state = .admitting → s.adm.claimFill.need = ⟨0, 0, 0, s.fill.line⟩) ∧
  ((s.fill.state = .awaitSkid ∨ s.fill.state = .flowing) →
    s.adm.claimFill.need = ⟨0, 0, 0, s.fill.line⟩ ∧
    s.adm.claimFill.committed.line = s.fill.line ∧ notStopped s) ∧
  (s.fill.state = .flowing → s.deliv s.fill.line = true)

/-- The guard of the valves (R34, R86), with what it rests on. -/
def valvesGuarded (s : State) : Prop :=
  intentsRight s ∧ satisfiedRight s ∧ stoppedRight s ∧ restingRight s ∧ runsGranted s ∧ fillGranted s

end Sys2Proof.Safety
end

