-- ==== Sys2Proof/Certificates/Slice0/Obligations.lean ====
section
/-!
DEFINITION. The statements about the DW460 model. A request row is taken with the exchange that carries
it in progress (`inExchange`); `Obligations.PortExchanges` takes every other form back to that one.
-/

open Sys2Proof Sys2Proof.Machine Sys2Proof.Safety

/-! ### The queue and the port -/

/-- A step with commands waiting runs the one at the front, with the queue's rest; and no command ends in
a fault or a refusal. -/
def Obligations.StepRunsQueueFront : Prop :=
  (∀ (c : Instr) (rest : List Instr) (s : State), s.pending = c :: rest →
    step s = exec c { s with pending := rest }) ∧
  ∀ (c : Instr) (s : State), ∃ t, exec c s = .next t

/-- With no command waiting: a single row that is due goes into the queue; with none due a millisecond
passes, in which the count of R2 moves in LISTEN, LIVE and SAFE alone, every running timer counts down, the
pause timers and the fill duration count up, and nothing else changes. The model's choice,
notes/assumptions/1.md. -/
def Obligations.EmptyQueueStepsTime : Prop :=
  ∀ s : State, s.pending = [] →
    (∀ i, s.due = [i] → step s = .next { s with pending := [i] }) ∧
    (s.due = [] →
      ∃ t, step s = .next t ∧
        (inYard s → t.ms = s.ms + 1) ∧ (¬inYard s → t.ms = s.ms) ∧
        t.adm =
          { s.adm with
            announce := s.adm.announce.map (· - 1)
            listen := s.adm.listen.map (· - 1)
            settle := s.adm.settle.map (· - 1) } ∧
        (∀ c, t.circ c =
          { s.circ c with
            dropWait := (s.circ c).dropWait.map (· - 1)
            stepSecond := (s.circ c).stepSecond.map (· - 1)
            stallMonitor := (s.circ c).stallMonitor.map (· - 1)
            stallLimit := (s.circ c).stallLimit.map (· - 1)
            sump := (s.circ c).sump.map (· - 1)
            runOut := (s.circ c).runOut.map (· - 1)
            pause := (s.circ c).pause.map fun n => min (n + 1) 4294967295 }) ∧
        t.fill =
          { s.fill with
            dropWait := s.fill.dropWait.map (· - 1)
            skid := s.fill.skid.map (· - 1)
            noFlow := s.fill.noFlow.map (· - 1)
            runOut := s.fill.runOut.map (· - 1)
            duration :=
              if s.fill.state = .awaitSkid ∨ s.fill.state = .flowing ∨ s.fill.state = .closing
              then min (s.fill.duration + 1) 4294967295 else s.fill.duration } ∧
        t.leaveTimer = s.leaveTimer.map (· - 1) ∧
        t.bay = s.bay ∧ t.jobs = s.jobs ∧ t.peers = s.peers ∧ t.line = s.line ∧ t.certs = s.certs ∧
        t.port = s.port ∧ t.events = s.events ∧ t.safety = s.safety ∧ t.sticky = s.sticky ∧
        t.pins = s.pins ∧ t.frontEnd = s.frontEnd ∧ t.config = s.config ∧ t.store = s.store ∧
        t.ownAddr = s.ownAddr ∧ t.tie = s.tie ∧ t.drawn = s.drawn ∧ t.pending = [])

/-- The state after power-on reset, at the values the rules give (R26, R28, R51, R70, R102, R126, R142,
R162, R171, R184, R197). That RESETN is deasserted in it is the model's choice, notes/assumptions/11.md. -/
def Obligations.ResetValues : Prop :=
  State.reset.bay = .setup ∧ State.reset.ms = 0 ∧ State.reset.config = none ∧
  State.reset.ownAddr = none ∧ State.reset.sticky = .clear ∧
  State.reset.events = ⟨[], false⟩ ∧ State.reset.attn = false ∧
  State.reset.port.prepared = ⟨.ok, []⟩ ∧ State.reset.portState = .idle ∧
  (∀ i, State.reset.store.recipe? i = none) ∧
  (∀ p n, State.reset.store.entry p n = .forbidden) ∧
  (∀ c b, State.reset.store.weight c b = 0) ∧
  State.reset.frontEnd = ⟨⟨255, 255, 0, 0, 0⟩, ⟨255, 255, 0, 0, 0⟩⟩ ∧
  (∀ c, (State.reset.channels c).t1 = 255 ∧ (State.reset.channels c).t2 = 255 ∧
    (State.reset.channels c).supply = 0 ∧ (State.reset.channels c).ret = 0 ∧
    (State.reset.channels c).turbidity = 0) ∧
  State.reset.jobs = ⟨none, none, .none, .none⟩ ∧
  (∀ c, (State.reset.circ c).state = .idle ∧ (State.reset.circ c).entries = [] ∧
    (State.reset.circ c).rcd = .cleared ∧ (State.reset.circ c).spinning = false ∧
    (State.reset.circ c).lastTemp = 255 ∧ (State.reset.circ c).samples = ⟨0, 0, 0⟩) ∧
  State.reset.circA.dropSel = 1 ∧ State.reset.circB.dropSel = 5 ∧
  State.reset.fill.state = .idle ∧ State.reset.fill.dropSel = 1 ∧
  State.reset.fill.trails = ⟨0, 0, 0, 0⟩ ∧ State.reset.fill.order = [] ∧
  (∀ k, (State.reset.claim k).state = .idle ∧ (State.reset.claim k).committed = .zero ∧
    (State.reset.claim k).need = .zero) ∧
  State.reset.adm.newestAge = 255 ∧ State.reset.adm.tick = 0 ∧ (∀ q, State.reset.adm.eff q = 0) ∧
  State.reset.peers = [] ∧ State.reset.line.degraded = false ∧ State.reset.line.window = [] ∧
  State.reset.line.free = false ∧ State.reset.line.clock.locked = false ∧
  State.reset.line.pendingFrame = .empty ∧ State.reset.line.hold = false ∧
  State.reset.yld = true ∧ State.reset.certs.records = [] ∧ State.reset.certs.freeBytes = 4096 ∧
  State.reset.safety.snapshot = none ∧ State.reset.safety.causes = .empty ∧
  State.reset.safety.silence = .quiet ∧ State.reset.pins.resetn = false ∧ outputsOff State.reset

/-- EXCHANGE_START shifts out the prepared response, or NOT_READY with length 0 while the port is
PREPARING; PREPARATION_DONE ends PREPARING; a request whose exchange began in PREPARING, or was cut by a
reset, is discarded with no effect of any kind, whether its start was a row or not. None touches anything but
the port (R185, R187, R197). SDO carries the response's bytes, each MSB first, then zeros. That a request row
with no exchange in progress stands for the whole exchange is the model's choice, notes/assumptions/4.md. -/
def Obligations.PortExchanges : Prop :=
  ∀ s : State,
    (s.port.exchange = .none → s.pins.resetn = false → s.port.preparing = false →
      exec .exchangeStart s =
        .next { s with
          port := { s.port with exchange := .answering, shiftOut := some s.port.prepared } }) ∧
    (s.port.exchange = .none → s.pins.resetn = false → s.port.preparing = true →
      exec .exchangeStart s =
        .next { s with
          port := { s.port with exchange := .notReady, shiftOut := some ⟨.notReady, []⟩ } }) ∧
    exec .preparationDone s = .next { s with port := { s.port with preparing := false } } ∧
    (∀ (i : Instr) (r : Request), requestIn i = some r →
      (s.port.exchange = .none ∧ s.port.preparing = true) ∨ s.port.exchange = .notReady ∨
        s.port.exchange = .notTaken →
      exec i s = .next { s with port := { s.port with exchange := .none, shiftOut := none } }) ∧
    (∀ r, s.port.exchange = .notReady ∨ s.port.exchange = .notTaken →
      exec (.unknownCommand r) s =
        .next { s with port := { s.port with exchange := .none, shiftOut := none } }) ∧
    (∀ (i : Instr) (r : Request), requestIn i = some r → s.port.exchange = .none →
      ∃ t, exec .exchangeStart s = .next t ∧ exec i s = exec i t) ∧
    (∀ (r : Response) (k : Nat), s.port.shiftOut = some r → s.pins.resetn = false →
      (k < 8 → s.sdo k = (Config.statusCode r.status).getLsbD (7 - k)) ∧
      (8 ≤ k → k < 16 → s.sdo k = (BitVec.ofNat 8 r.body.length).getLsbD (15 - k)) ∧
      (∀ j m, k = 16 + 8 * j + m → m < 8 → s.sdo k = (r.body.getD j 0).getLsbD (7 - m))) ∧
    (∀ k, s.port.shiftOut = none → s.sdo k = false)

/-- The cases of R186 for a known command, in order: RESETTING in RESETTING; else BAD_ARG with detail 254
for a truncated request and 253 for one with L above 250; then R188: REFUSED_STATE with 255 and the bay
state outside the command's states. None has another effect. -/
def Obligations.RequestsChecked : Prop :=
  ∀ (i : Instr) (r : Request) (s : State), requestIn i = some r → inExchange s →
    (s.bay = .resetting → exec i s = .next (answeredWith s .resetting [])) ∧
    (s.bay ≠ .resetting → r.len = none → exec i s = .next (answeredWith s .badArg [254])) ∧
    (∀ l : Byte, s.bay ≠ .resetting → r.len = some l → r.data.length < l.toNat →
      exec i s = .next (answeredWith s .badArg [254])) ∧
    (∀ l : Byte, s.bay ≠ .resetting → r.len = some l → l.toNat ≤ r.data.length → 250 < l.toNat →
      exec i s = .next (answeredWith s .badArg [253])) ∧
    ∀ l : Byte, s.bay ≠ .resetting → r.len = some l → l.toNat ≤ r.data.length → l.toNat ≤ 250 →
      executedIn i s.bay = false →
      exec i s = .next (answeredWith s .refusedState [255, BitVec.ofNat 8 s.bay.code])

/-- Raising an event appends one record with the mark of a loss before it, or marks a loss when 32 wait;
nothing is raised in SETUP and RESETTING (R193). -/
def Obligations.RaisedEvents : Prop :=
  ∀ (k : EventKind) (d0 d1 d2 : Nat) (s : State),
    (inYard s → s.events.records.length < 32 →
      raise k d0 d1 d2 s =
        { s with
          events :=
            ⟨s.events.records ++ [⟨k, s.events.lost, BitVec.ofNat 8 d0, BitVec.ofNat 8 d1,
              BitVec.ofNat 8 d2, s.ms⟩], false⟩ }) ∧
    (inYard s → 32 ≤ s.events.records.length →
      raise k d0 d1 d2 s = { s with events := { s.events with lost := true } }) ∧
    (¬inYard s → raise k d0 d1 d2 s = s)

/-- UNKNOWN_COMMAND: a request that names no command is answered UNKNOWN with length 0, RESETTING in
RESETTING; an exchange in which no byte was clocked leaves the prepared response as it is (R186). -/
def Obligations.UnknownCommandAnswered : Prop :=
  ∀ (body : List Byte) (s : State), bodyFits body → inExchange s →
    (s.bay ≠ .resetting →
      exec (.unknownCommand (some (requestOf body))) s = .next (answeredWith s .unknown [])) ∧
    (s.bay = .resetting →
      exec (.unknownCommand (some (requestOf body))) s = .next (answeredWith s .resetting [])) ∧
    exec (.unknownCommand none) s =
      .next { s with port := { s.port with exchange := .none, shiftOut := none } }

/-! ### Commands that read -/

/-- NOP prepares OK with length 0; STATUS reports ten bytes and then clears the four sticky alarm flags.
Nothing else changes (R187, R192). -/
def Obligations.NopAndStatusAnswer : Prop :=
  ∀ (b : List Byte) (s : State), bodyFits b → inExchange s → s.bay ≠ .resetting →
    exec (.nop (requestOf b)) s = .next (answeredWith s .ok []) ∧
    ∃ body, exec (.status (requestOf b)) s =
        .next (answeredWith { s with sticky := .clear } .ok body) ∧
      body.length = 10 ∧ byteAt body 0 = s.bay.code ∧ byteAt body 1 = s.safety.causes.code ∧
      byteAt body 2 = s.statusFlags ∧
      byteAt body 3 = s.jobs.last.code + 16 * s.jobs.previous.code ∧
      byteAt body 4 = s.events.records.length % 256 ∧
      byteAt body 5 = s.certs.records.length % 256 ∧ wordAt body 6 = s.certs.freeBytes ∧
      byteAt body 8 = s.peers.length % 256 ∧ byteAt body 9 = s.sticky.code

/-- READ_JOB answers the 247 bytes of chapter 12.4, every field where the layout puts it, and changes
nothing (R25, R200, R202). How a value too wide for its field and a rest of a unit are written is the model's
reading, notes/assumptions/15.md. -/
def Obligations.ReadJobReadsOnly : Prop :=
  ∀ (b : List Byte) (s : State), bodyFits b → inExchange s → inYard s →
    ∃ body, exec (.readJob (requestOf b)) s = .next (answeredWith s .ok body) ∧
      body.length = 247 ∧
      byteAt body 0 = (match s.jobs.staged with
        | some j => if j.waitMark then 2 else 1
        | none => 0) ∧
      (∀ j, s.jobs.staged = some j →
        countAt body 1 = j.tag ∧ byteAt body 5 = j.comps.length % 256) ∧
      (s.jobs.staged = none → countAt body 1 = 0 ∧ byteAt body 5 = 0) ∧
      byteAt body 6 = (match s.jobs.active with
        | some j => if j.running then 2 else 1
        | none => 0) ∧
      (∀ j, s.jobs.active = some j →
        countAt body 7 = j.tag ∧ byteAt body 11 = j.comps.length % 256) ∧
      (s.jobs.active = none → countAt body 7 = 0 ∧ byteAt body 11 = 0) ∧
      (∀ i o, i < 6 → o = 12 + 9 * i →
        (∀ c, s.comp? (i + 1) = some c →
          byteAt body o = c.state.code ∧ byteAt body (o + 1) = ownerCode c.owner ∧
          byteAt body (o + 2) = c.reason.code ∧ byteAt body (o + 3) = c.loaded.drop % 256 ∧
          byteAt body (o + 4) = c.loaded.fillLine % 256 ∧
          (∀ r, c.loaded.stored = .recipe r → byteAt body (o + 5) = r % 256) ∧
          (c.loaded.stored = .noRecipe → byteAt body (o + 5) = 255) ∧
          (c.loaded.stored = .absent → byteAt body (o + 5) = 0) ∧
          byteAt body (o + 6) = c.retriesUsed % 256 ∧
          wordAt body (o + 7) = c.revolutions % 65536) ∧
        (s.comp? (i + 1) = none → ∀ k, k < 9 → byteAt body (o + k) = 0)) ∧
      (∀ (c : Side) (o : Nat) (x : Circuit), x = s.circ c →
        o = (match c with
          | .a => 66
          | .b => 108) →
        byteAt body o = x.state.code ∧ byteAt body (o + 1) = x.comp % 256 ∧
        byteAt body (o + 2) = x.step % 256 ∧
        byteAt body (o + 3) = (if x.spinning then 1 else 0) + 2 * x.lastStatus.code ∧
        wordAt body (o + 4) = min 65535 ((match x.state with
          | .waitDrop => x.dropWait.getD 0
          | .running => x.stallLimit.getD 0
          | .paused => x.pause.getD 0
          | .runOut => x.runOut.getD 0
          | .idle => 0
          | .admitting => 0) / 100) ∧
        wordAt body (o + 6) = min 65535 ((if x.state = .running then x.sump.getD 0 else 0) / 100) ∧
        wordAt body (o + 8) = x.rcd.elapsed % 65536 ∧ wordAt body (o + 10) = x.rcd.good % 65536 ∧
        countAt body (o + 12) = BitVec.ofNat 32 x.rcd.dose256 ∧
        wordAt body (o + 16) = x.rcd.dose256 / 256 % 65536 ∧
        byteAt body (o + 18) = x.rcd.tMin % 256 ∧ byteAt body (o + 19) = x.rcd.tMax % 256 ∧
        byteAt body (o + 20) = x.rcd.corrected % 256 ∧ byteAt body (o + 21) = x.rcd.failed % 256 ∧
        wordAt body (o + 22) = min 65535 (x.rcd.pulses / s.pulsesPerRev c) ∧
        byteAt body (o + 24) = x.rcd.pauses % 256 ∧ byteAt body (o + 25) = x.probeFault % 256 ∧
        wordAt body (o + 26) = x.heldQ % 65536 ∧ byteAt body (o + 28) = x.lastTemp % 256 ∧
        wordAt body (o + 29) = x.lastIncrement % 65536 ∧
        byteAt body (o + 31) = (s.shownSamples c).n % 256 ∧
        wordAt body (o + 32) =
          meanOf (s.shownSamples c).excess (s.shownSamples c).n % 65536 ∧
        wordAt body (o + 34) =
          meanOf (s.shownSamples c).turbidity (s.shownSamples c).n % 65536 ∧
        wordAt body (o + 36) = x.lastReturn % 65536 ∧ wordAt body (o + 38) = x.lastSupply % 65536 ∧
        wordAt body (o + 40) = x.lastTurbidity % 65536) ∧
      byteAt body 150 = s.fill.state.code ∧ byteAt body 151 = s.fill.comp % 256 ∧
      byteAt body 152 = s.fill.line % 256 ∧ byteAt body 153 = s.fill.closeKind.code ∧
      wordAt body 154 = s.fill.preset % 65536 ∧
      countAt body 156 = BitVec.ofNat 32 s.fill.pulses ∧
      wordAt body 160 = min 65535 (s.fill.pulses / s.cfg.fillMeter) ∧
      countAt body 162 = BitVec.ofNat 32 s.fill.closePoint ∧
      wordAt body 166 = min 65535 s.fill.volumeAtClose ∧ byteAt body 168 = s.fill.trailUsed % 256 ∧
      byteAt body 169 = s.fill.interruptions % 256 ∧
      wordAt body 170 = min 65535 ((match s.fill.state with
        | .waitDrop => s.fill.dropWait.getD 0
        | .awaitSkid => s.fill.skid.getD 0
        | .flowing => s.fill.noFlow.getD 0
        | .closing => s.fill.runOut.getD 0
        | .idle => 0
        | .admitting => 0
        | .interrupted => 0) / 100) ∧
      wordAt body 172 = min 65535 (s.fill.duration / 1000) ∧
      byteAt body 174 = s.fill.order.length % 256 ∧
      (∀ j, j < 6 → byteAt body (175 + j) = s.fill.order.getD j 0 % 256) ∧
      (∀ (k : Consumer) (o : Nat) (x : Claim), x = s.claim k →
        o = (match k with
          | .a => 181
          | .b => 196
          | .fill => 211) →
        byteAt body o = x.state.code + (if x.shed then 128 else 0) ∧
        wordAt body (o + 1) = x.need.heat % 65536 ∧ wordAt body (o + 3) = x.need.flow % 65536 ∧
        wordAt body (o + 5) = x.need.drain % 65536 ∧
        wordAt body (o + 7) = x.committed.heat % 65536 ∧
        wordAt body (o + 9) = x.committed.flow % 65536 ∧
        wordAt body (o + 11) = x.committed.drain % 65536 ∧
        byteAt body (o + 13) = (x.need.line + 16 * x.committed.line) % 256 ∧
        byteAt body (o + 14) =
          (if x.state = .satisfied ∨ x.state = .idle then 0 else s.adm.waitAge x)) ∧
      wordAt body 226 = s.adm.effHeat % 65536 ∧ wordAt body 228 = s.adm.effFlow % 65536 ∧
      wordAt body 230 = s.adm.effDrain % 65536 ∧ countAt body 232 = s.adm.tick ∧
      byteAt body 236 = s.adm.newestAge ∧ byteAt body 237 = ownerCode s.adm.intentClaim ∧
      byteAt body 238 =
        (if s.adm.intentClaim = none then 0 else s.adm.announcedAge.getD 0 % 256) ∧
      wordAt body 239 = min 65535 (s.adm.settle.getD 0 / 100) ∧
      byteAt body 241 = s.line.flags ∧ byteAt body 242 = s.line.framer.lastDiscard.code ∧
      byteAt body 243 = s.line.transmitCode + 16 * s.line.lastOutcome.code ∧
      byteAt body 244 = s.line.pendingFrame.code ∧ byteAt body 245 = s.line.window.length % 256 ∧
      byteAt body 246 = s.line.badCount % 256

/-- READ_PEERS answers the entry at the index, every field of it, with the count, or EMPTY with the count,
and changes nothing; the entries stand in ascending order of address where the books are right; outside
LISTEN, LIVE and SAFE it is refused (R133, R141, R186, R188). That a body of another length is BAD_ARG with a
free detail is the model's choice, notes/assumptions/7.md. -/
def Obligations.ReadPeersByIndex : Prop :=
  ∀ (n : Byte) (s : State), inExchange s →
    (s.bay = .resetting →
      exec (.readPeers (requestOf [n])) s = .next (answeredWith s .resetting [])) ∧
    (s.bay = .setup →
      exec (.readPeers (requestOf [n])) s = .next (answeredWith s .refusedState [255, 0])) ∧
    (∀ p, inYard s → s.peers[n.toNat]? = some p →
      ∃ body, exec (.readPeers (requestOf [n])) s = .next (answeredWith s .ok body) ∧
        body.length = 29 ∧ byteAt body 0 = s.peers.length % 256 ∧ byteAt body 1 = n.toNat ∧
        byteAt body 2 = p.address.toNat ∧ byteAt body 3 = (if p.stale then 1 else 0) ∧
        byteAt body 4 = p.bayCode.toNat + (if p.safeFlag then 16 else 0) +
          (if p.leavingFlag then 32 else 0) + (if p.derateSeen then 64 else 0) ∧
        byteAt body 5 = p.capSet.toNat ∧
        byteAt body 6 = (if p.mismatch then 1 else 0) + (if p.mismatchReported then 2 else 0) ∧
        wordAt body 7 = p.committedHeat % 65536 ∧ wordAt body 9 = p.committedFlow % 65536 ∧
        wordAt body 11 = p.committedDrain % 65536 ∧ byteAt body 13 = p.heldLines.toNat ∧
        wordAt body 14 = p.intentHeat % 65536 ∧ wordAt body 16 = p.intentFlow % 65536 ∧
        wordAt body 18 = p.intentDrain % 65536 ∧ byteAt body 20 = p.intentLine % 256 ∧
        byteAt body 21 = p.intentAge % 256 ∧ byteAt body 22 = p.newestAge % 256 ∧
        countAt body 23 = p.heard ∧ wordAt body 27 = min 65535 (s.ms - p.heard).toNat) ∧
    (inYard s → s.peers[n.toNat]? = none →
      exec (.readPeers (requestOf [n])) s =
        .next (answeredWith s .empty [BitVec.ofNat 8 s.peers.length])) ∧
    (booksRight s →
      s.peers.length ≤ 15 ∧
        s.peers.Pairwise (fun p q => p.address.toNat < q.address.toNat)) ∧
    ∀ b : List Byte, bodyFits b → inYard s → b.length ≠ 1 →
      ∃ detail, exec (.readPeers (requestOf b)) s =
        .next (answeredWith { s with drawn := s.drawn + 1 } .badArg detail)

/-- READ_EVENT removes the oldest record and answers it, or answers EMPTY, the lost mark as it was; ATTN is
asserted exactly while a record waits (RESETN deasserted), so it stays asserted exactly while one is left;
the next record that enters an empty queue asserts it and carries the lost mark (R194). -/
def Obligations.ReadEventTakesOldest : Prop :=
  ∀ (b : List Byte) (s : State), bodyFits b → inExchange s →
    (s.pins.resetn = false → (s.attn = true ↔ s.events.records ≠ [])) ∧
    (∀ k d0 d1 d2, inYard s → s.events.records = [] →
      (s.pins.resetn = false → (raise k d0 d1 d2 s).attn = true) ∧
        ∃ e, (raise k d0 d1 d2 s).events = ⟨[e], false⟩ ∧ e.lost = s.events.lost) ∧
    (s.bay = .resetting →
      exec (.readEvent (requestOf b)) s = .next (answeredWith s .resetting [])) ∧
    (s.bay ≠ .resetting → s.events.records = [] →
      exec (.readEvent (requestOf b)) s = .next (answeredWith s .empty [])) ∧
    ∀ e rest, s.bay ≠ .resetting → s.events.records = e :: rest →
      ∃ body, exec (.readEvent (requestOf b)) s =
          .next (answeredWith { s with events := { s.events with records := rest } } .ok body) ∧
        body.length = 8 ∧ byteAt body 0 = e.kind.code + (if e.lost then 128 else 0) ∧
        byteAt body 1 = e.d0.toNat ∧ byteAt body 2 = e.d1.toNat ∧ byteAt body 3 = e.d2.toNat ∧
        countAt body 4 = e.time ∧
        (s.pins.resetn = false →
          (answeredWith { s with events := { s.events with records := rest } } .ok body).attn =
            decide (rest ≠ []))

/-- READ_CERT reads the head record without a change; REMOVE_CERT removes it, answers its compartment
number, its length and the records left, and attempts a promotion, which with no job staged or one active
does nothing. In RESETTING neither is executed (R168, R169). -/
def Obligations.CertsReadAndRemoved : Prop :=
  ∀ (b : List Byte) (offset asked : Byte) (s : State), bodyFits b → inExchange s →
    (s.bay = .resetting →
      exec (.readCert (requestOf b)) s = .next (answeredWith s .resetting []) ∧
      exec (.removeCert (requestOf b)) s = .next (answeredWith s .resetting [])) ∧
    (s.bay ≠ .resetting → b.length ≠ 2 →
      exec (.readCert (requestOf b)) s = .next (answeredWith s .badArg [1])) ∧
    (s.bay ≠ .resetting → asked = 0 →
      exec (.readCert (requestOf [offset, asked])) s = .next (answeredWith s .badArg [2])) ∧
    (s.bay ≠ .resetting → asked ≠ 0 → s.certs.records = [] →
      exec (.readCert (requestOf [offset, asked])) s = .next (answeredWith s .empty [])) ∧
    (∀ head rest, s.bay ≠ .resetting → asked ≠ 0 → s.certs.records = head :: rest →
      ∃ n, n = (if head.length ≤ offset.toNat then 0
          else min (min asked.toNat 64) (head.length - offset.toNat)) ∧
        exec (.readCert (requestOf [offset, asked])) s =
          .next (answeredWith s (if n = asked.toNat then .ok else .clamped)
            ([BitVec.ofNat 8 head.length, BitVec.ofNat 8 n] ++
              (head.drop offset.toNat).take n))) ∧
    (s.bay ≠ .resetting → s.certs.records = [] →
      exec (.removeCert (requestOf b)) s = .next (answeredWith s .empty [])) ∧
    ∀ head rest, s.bay ≠ .resetting → s.certs.records = head :: rest →
      ∃ u t, u = { s with certs := { s.certs with records := rest } } ∧
        exec (.removeCert (requestOf b)) s =
          .next (answeredWith t .ok
            [BitVec.ofNat 8 (byteAt head 4), BitVec.ofNat 8 head.length,
              BitVec.ofNat 8 rest.length]) ∧
        (s.jobs.staged = none ∨ s.jobs.active ≠ none → t = u) ∧
        ∀ j, s.jobs.active = none → s.jobs.staged = some j →
          (u.certs.fits j.comps.length = false → j.waitMark = true → t = u) ∧
          (u.certs.fits j.comps.length = true →
            ∃ ev, t =
                { u with
                  jobs := { s.jobs with staged := none, active := some j.promoted }
                  certs := u.certs.reserve j.comps.length
                  events := ev } ∧
              (inYard s → s.events.records.length < 32 →
                ∃ e, ev.records = s.events.records ++ [e] ∧ e.kind = .jobPromoted ∧
                  e.time = s.ms))

/-- READ_SNAPSHOT answers every field of the snapshot, or EMPTY with no body, in every bay state but
RESETTING, and changes nothing (R183). -/
def Obligations.SnapshotRead : Prop :=
  ∀ (b : List Byte) (s : State), bodyFits b → inExchange s →
    (s.bay = .resetting →
      exec (.readSnapshot (requestOf b)) s = .next (answeredWith s .resetting [])) ∧
    (s.bay ≠ .resetting → s.safety.snapshot = none →
      exec (.readSnapshot (requestOf b)) s = .next (answeredWith s .empty [])) ∧
    ∀ n, s.bay ≠ .resetting → s.safety.snapshot = some n →
      ∃ body, exec (.readSnapshot (requestOf b)) s = .next (answeredWith s .ok body) ∧
        body.length = 28 ∧ byteAt body 0 = n.cause.bit ∧ countAt body 1 = n.time ∧
        byteAt body 5 = n.left.code ∧
        byteAt body 6 = n.a.comp % 256 ∧ byteAt body 7 = n.a.step % 256 ∧
        byteAt body 8 = n.a.state.code ∧ wordAt body 9 = n.a.dose % 65536 ∧
        wordAt body 11 = n.a.elapsed % 65536 ∧ wordAt body 13 = n.a.good % 65536 ∧
        byteAt body 15 = n.b.comp % 256 ∧ byteAt body 16 = n.b.step % 256 ∧
        byteAt body 17 = n.b.state.code ∧ wordAt body 18 = n.b.dose % 65536 ∧
        wordAt body 20 = n.b.elapsed % 65536 ∧ wordAt body 22 = n.b.good % 65536 ∧
        byteAt body 24 = n.fillComp % 256 ∧ byteAt body 25 = n.fillState.code ∧
        wordAt body 26 = min n.fillVolume 65535

/-- GET_TRAIL answers the four trails and changes nothing; SET_TRAIL stores at most 200 litres for a line
of 1..4, echoes it, and refuses any other body or line with no trail changed (R100). That a trail takes
one byte in GET_TRAIL's body is the model's, notes/assumptions/30.md. -/
def Obligations.TrailsReadAndWritten : Prop :=
  ∀ (b : List Byte) (line : Byte) (lo hi : Byte) (s : State), bodyFits b → inExchange s →
    s.bay ≠ .resetting →
    exec (.getTrail (requestOf b)) s =
      .next (answeredWith s .ok [BitVec.ofNat 8 s.fill.trails.t1, BitVec.ofNat 8 s.fill.trails.t2,
        BitVec.ofNat 8 s.fill.trails.t3, BitVec.ofNat 8 s.fill.trails.t4]) ∧
    (b.length ≠ 3 → exec (.setTrail (requestOf b)) s = .next (answeredWith s .badArg [])) ∧
    (¬(1 ≤ line.toNat ∧ line.toNat ≤ 4) →
      exec (.setTrail (requestOf [line, lo, hi])) s = .next (answeredWith s .badArg [line])) ∧
    (1 ≤ line.toNat → line.toNat ≤ 4 →
      ∃ v, v = min 200 (lo.toNat + 256 * hi.toNat) ∧
        exec (.setTrail (requestOf [line, lo, hi])) s =
          .next (answeredWith
            { s with fill := { s.fill with trails := s.fill.trails.set line.toNat v } }
            (if 200 < lo.toNat + 256 * hi.toNat then .clamped else .ok)
            [line, BitVec.ofNat 8 v, 0]) ∧
        (s.fill.trails.set line.toNat v).get line.toNat = v ∧
        ∀ other, 1 ≤ other → other ≤ 4 → other ≠ line.toNat →
          (s.fill.trails.set line.toNat v).get other = s.fill.trails.get other)

/-! ### Commands of SETUP -/

/-- CONFIGURE stores every field as sent, brought to the nearer end of its range, the period first brought
down to a step of 50 ms; it recomputes the effective capacities, answers CLAMPED when a byte was changed and
OK otherwise, and echoes the 30 bytes as stored; a body of another length is BAD_ARG with detail 1 and stores
nothing (R190, R104). -/
def Obligations.ConfigureStoresInRange : Prop :=
  ∀ (b : List Byte) (s : State), bodyFits b → inExchange s → s.bay = .setup →
    (b.length ≠ 30 → exec (.configure (requestOf b)) s = .next (answeredWith s .badArg [1])) ∧
    (b.length = 30 →
      ∃ (c : Configuration) (body : List Byte),
        exec (.configure (requestOf b)) s =
          .next (answeredWith
            { s with config := some c, adm := s.adm.withCapacities c s.pins.derate }
            (if body = b then .ok else .clamped) body) ∧
        c.capSet = byteAt b 0 ∧ c.bitRate = (if byteAt b 1 = 0 then 0 else 1) ∧
        c.period = max 250 (min 2000 (wordAt b 2 / 50 * 50)) ∧
        c.capHeat = min 4000 (wordAt b 4) ∧ c.capFlow = min 2000 (wordAt b 6) ∧
        c.capDrain = min 3000 (wordAt b 8) ∧ c.heatPercent = min 100 (byteAt b 10) ∧
        c.flowPercent = min 100 (byteAt b 11) ∧ c.meterA = max 1 (min 100 (byteAt b 12)) ∧
        c.meterB = max 1 (min 100 (byteAt b 13)) ∧ c.pulsesPerRevA = max 1 (min 8 (byteAt b 14)) ∧
        c.pulsesPerRevB = max 1 (min 8 (byteAt b 15)) ∧
        c.stallTime = max 500 (min 5000 (wordAt b 16)) ∧
        c.stallLimit = max 5 (min 120 (byteAt b 18)) ∧ c.runOutTime = min 120 (byteAt b 19) ∧
        c.probeFaultLimit = max 5 (min 120 (byteAt b 20)) ∧
        c.dropWaitLimit = min 3600 (wordAt b 21) ∧ c.fillMeter = max 1 (min 100 (byteAt b 23)) ∧
        c.fillTolerance = min 500 (wordAt b 24) ∧ c.fillRunOut = max 1 (min 20 (byteAt b 26)) ∧
        c.skidTimeout = max 1 (min 60 (byteAt b 27)) ∧
        c.noFlowTime = max 2 (min 30 (byteAt b 28)) ∧
        c.phaseShift = (if byteAt b 29 = 0 then 0 else 1) ∧
        body.length = 30 ∧ byteAt body 0 = c.capSet ∧ byteAt body 1 = c.bitRate ∧
        wordAt body 2 = c.period ∧ wordAt body 4 = c.capHeat ∧ wordAt body 6 = c.capFlow ∧
        wordAt body 8 = c.capDrain ∧ byteAt body 10 = c.heatPercent ∧
        byteAt body 11 = c.flowPercent ∧ byteAt body 12 = c.meterA ∧ byteAt body 13 = c.meterB ∧
        byteAt body 14 = c.pulsesPerRevA ∧ byteAt body 15 = c.pulsesPerRevB ∧
        wordAt body 16 = c.stallTime ∧ byteAt body 18 = c.stallLimit ∧
        byteAt body 19 = c.runOutTime ∧ byteAt body 20 = c.probeFaultLimit ∧
        wordAt body 21 = c.dropWaitLimit ∧ byteAt body 23 = c.fillMeter ∧
        wordAt body 24 = c.fillTolerance ∧ byteAt body 26 = c.fillRunOut ∧
        byteAt body 27 = c.skidTimeout ∧ byteAt body 28 = c.noFlowTime ∧
        byteAt body 29 = c.phaseShift)

/-- WRITE_WEIGHTS replaces one curve and WRITE_MATRIX one row, or each answers BAD_ARG with the detail
of its first failing check and changes nothing; outside SETUP neither is executed, and a row not written
since power-on reset is FORBIDDEN (R60, R31). -/
def Obligations.WeightsAndMatrixWritten : Prop :=
  (∀ p n, RecipeStore.reset.entry p n = .forbidden) ∧
  ∀ (b : List Byte) (s : State), bodyFits b → inExchange s →
    (s.bay = .resetting →
      exec (.writeWeights (requestOf b)) s = .next (answeredWith s .resetting []) ∧
      exec (.writeMatrix (requestOf b)) s = .next (answeredWith s .resetting [])) ∧
    (inYard s →
      exec (.writeWeights (requestOf b)) s =
        .next (answeredWith s .refusedState [255, BitVec.ofNat 8 s.bay.code]) ∧
      exec (.writeMatrix (requestOf b)) s =
        .next (answeredWith s .refusedState [255, BitVec.ofNat 8 s.bay.code])) ∧
    (s.bay = .setup → b.length ≠ 17 →
      exec (.writeWeights (requestOf b)) s = .next (answeredWith s .badArg [1]) ∧
      exec (.writeMatrix (requestOf b)) s = .next (answeredWith s .badArg [255, 1])) ∧
    (s.bay = .setup → b.length = 17 → 3 < byteAt b 0 →
      exec (.writeWeights (requestOf b)) s = .next (answeredWith s .badArg [2])) ∧
    (s.bay = .setup → b.length = 17 → byteAt b 0 ≤ 3 →
      exec (.writeWeights (requestOf b)) s =
        .next (answeredWith
          { s with
            store :=
              { s.store with
                curves := s.store.curves.set (byteAt b 0) ((b.drop 1).map BitVec.toNat) } }
          .ok [])) ∧
    (s.bay = .setup → b.length = 17 → 15 < byteAt b 0 →
      exec (.writeMatrix (requestOf b)) s = .next (answeredWith s .badArg [255, 2])) ∧
    (∀ j, s.bay = .setup → b.length = 17 → byteAt b 0 ≤ 15 → j < 16 →
      (∀ k, k < j → (matrixOfCode (byteAt b (k + 1))).isSome = true) →
      matrixOfCode (byteAt b (j + 1)) = none →
      exec (.writeMatrix (requestOf b)) s =
        .next (answeredWith s .badArg [BitVec.ofNat 8 j, 3])) ∧
    ∀ row, s.bay = .setup → b.length = 17 → byteAt b 0 ≤ 15 →
      (b.drop 1).map (fun x => matrixOfCode x.toNat) = row.map some →
      exec (.writeMatrix (requestOf b)) s =
        .next (answeredWith
          { s with store := { s.store with matrix := s.store.matrix.set (byteAt b 0) row } } .ok [])

/-- WRITE_RECIPE. The checks of R30 are made in order and the first that fails answers BAD_ARG with its step
and code and changes nothing. A body that meets them all is accepted: one slot is replaced with the recipe the
body gives, each field where R29 puts it, a field its kind does not use stored as 0, and nothing else changes
(R28, R29, R30). -/
def Obligations.RecipeWrittenWhole : Prop :=
  ∀ (b : List Byte) (s : State), bodyFits b → inExchange s → s.bay = .setup →
    (b.length < 2 → exec (.writeRecipe (requestOf b)) s = .next (answeredWith s .badArg [0, 3])) ∧
    (2 ≤ b.length → 15 < byteAt b 0 →
      exec (.writeRecipe (requestOf b)) s = .next (answeredWith s .badArg [0, 1])) ∧
    (2 ≤ b.length → byteAt b 0 ≤ 15 → byteAt b 1 = 0 ∨ 8 < byteAt b 1 →
      exec (.writeRecipe (requestOf b)) s = .next (answeredWith s .badArg [0, 2])) ∧
    (2 ≤ b.length → byteAt b 0 ≤ 15 → 1 ≤ byteAt b 1 → byteAt b 1 ≤ 8 →
      b.length ≠ 6 + 23 * byteAt b 1 →
      exec (.writeRecipe (requestOf b)) s = .next (answeredWith s .badArg [0, 3])) ∧
    (recipeHeaderRight b → 3 < byteAt b 3 →
      exec (.writeRecipe (requestOf b)) s = .next (answeredWith s .badArg [0, 4])) ∧
    (∀ j code, recipeHeaderRight b → byteAt b 3 ≤ 3 → j < byteAt b 1 →
      (∀ m, m < j → stepFault b m = none) → stepFault b j = some code →
      exec (.writeRecipe (requestOf b)) s =
        .next (answeredWith s .badArg [BitVec.ofNat 8 (j + 1), BitVec.ofNat 8 code])) ∧
    (recipeHeaderRight b → byteAt b 3 ≤ 3 → (∀ m, m < byteAt b 1 → stepFault b m = none) →
      1 ≤ byteAt b 3 → byteAt b 2 = 0 ∨ byteAt b 1 ≤ byteAt b 2 →
      exec (.writeRecipe (requestOf b)) s = .next (answeredWith s .badArg [0, 15])) ∧
    (recipeHeaderRight b → byteAt b 3 ≤ 3 → (∀ m, m < byteAt b 1 → stepFault b m = none) →
      byteAt b 3 = 0 ∨ (1 ≤ byteAt b 2 ∧ byteAt b 2 < byteAt b 1) →
      ∃ r : Recipe,
        exec (.writeRecipe (requestOf b)) s =
          .next (answeredWith
            { s with
              store := { s.store with recipes := s.store.recipes.set (byteAt b 0) (some r) } }
            .ok []) ∧
        r.steps.length = byteAt b 1 ∧ r.retryLimit = byteAt b 3 ∧ r.coverageMin = wordAt b 4 ∧
        r.repeatIndex = (if byteAt b 3 = 0 then 0 else byteAt b 2) ∧
        ∀ j st o, r.steps[j]? = some st → o = 6 + 23 * j →
          kindOfCode (byteAt b o) = some st.kind ∧ mediumOfCode (byteAt b (o + 1)) = some st.medium ∧
          st.heat = (if st.kind = .drain then 0 else wordAt b (o + 2)) ∧
          st.flow = (if st.kind = .drain then 0 else wordAt b (o + 4)) ∧
          st.drain = wordAt b (o + 6) ∧
          st.qMin = (if st.kind = .drain then 0 else wordAt b (o + 8)) ∧
          st.target = (if st.kind = .drain then 0 else wordAt b (o + 10)) ∧
          st.maxTime = (if st.kind = .inspect then 0 else wordAt b (o + 12)) ∧
          st.holdLimit = wordAt b (o + 14) ∧
          st.curve = (if st.kind = .wash ∨ st.kind = .sanitize then byteAt b (o + 16) else 0) ∧
          st.minConc = (if st.kind = .wash ∨ st.kind = .sanitize then wordAt b (o + 17) else 0) ∧
          st.turbidityLimit = (if st.kind = .inspect then wordAt b (o + 19) else 0) ∧
          st.excessLimit = (if st.kind = .inspect then wordAt b (o + 21) else 0))

/-- GO. It refuses by its checks in order and changes nothing then, naming the first recipe step, in
ascending order, that exceeds a capacity. Accepted, the own address is held, the counts start at 0, the yard
line unit starts, the bay is in LISTEN with the roll call handed and both timers started, and nothing of the
store, the jobs or the circuits changes; with ESTOP or PFW asserted the bay is in SAFE with that cause, PFW
with its LEAVE pending (R32, R128, R129, R131, R173, R179, R191). That ESTOP is first and PFW joins it when
both are asserted is the model's choice, notes/assumptions/16.md. -/
def Obligations.GoChecksAndStarts : Prop :=
  (∀ (addr : BitVec 4) (b : List Byte) (s : State), bodyFits b → inExchange s → s.bay = .setup →
    (s.config = none →
      exec (.go addr (requestOf b)) s = .next (answeredWith s .refusedState [1])) ∧
    (∀ c, s.config = some c → addr = 0 →
      exec (.go addr (requestOf b)) s = .next (answeredWith s .refusedState [2])) ∧
    ∀ c r n x st, s.config = some c → addr ≠ 0 → s.store.recipes[r]? = some (some x) →
      x.steps[n]? = some st →
      (c.capHeat < st.heat ∨ c.capFlow < st.flow ∨ c.capDrain < st.drain) →
      (∀ m y z, m < r → s.store.recipes[m]? = some (some y) → z ∈ y.steps →
        z.heat ≤ c.capHeat ∧ z.flow ≤ c.capFlow ∧ z.drain ≤ c.capDrain) →
      (∀ m z, m < n → x.steps[m]? = some z →
        z.heat ≤ c.capHeat ∧ z.flow ≤ c.capFlow ∧ z.drain ≤ c.capDrain) →
      exec (.go addr (requestOf b)) s =
        .next (answeredWith s .badArg
          [BitVec.ofNat 8 r, BitVec.ofNat 8 (n + 1),
            if c.capHeat < st.heat then 1 else if c.capFlow < st.flow then 2 else 3])) ∧
  ∀ (addr : BitVec 4) (b : List Byte) (c : Configuration) (s : State), bodyFits b → inExchange s →
    s.bay = .setup → s.config = some c → addr ≠ 0 →
    (∀ x, some x ∈ s.store.recipes → ∀ st ∈ x.steps,
      st.heat ≤ c.capHeat ∧ st.flow ≤ c.capFlow ∧ st.drain ≤ c.capDrain) →
    ∃ t, exec (.go addr (requestOf b)) s = .next t ∧
      t.port = ⟨.none, true, ⟨.ok, [BitVec.ofNat 8 addr.toNat]⟩, none⟩ ∧
      t.ownAddr = some addr ∧ t.ms = 0 ∧ t.adm.tick = 0 ∧
      t.adm.announce = some (addr.toNat * c.period / 16) ∧
      t.line.rollCall = some ⟨[BitVec.ofNat 8 (32 + addr.toNat), BitVec.ofNat 8 c.capSet], false⟩ ∧
      t.line.rate125 = decide (c.bitRate ≠ 0) ∧ t.line.phaseShift = decide (c.phaseShift ≠ 0) ∧
      t.line.free = false ∧ t.line.clock.locked = false ∧ t.line.attempt = none ∧
      t.config = s.config ∧ t.store = s.store ∧ t.jobs = s.jobs ∧ t.certs = s.certs ∧
      t.pins = s.pins ∧ t.peers = s.peers ∧ t.sticky = s.sticky ∧
      (s.pins.estop = false → s.pins.pfw = false →
        t.bay = .listen ∧ t.adm.listen = some (3 * c.period) ∧ t.circA = s.circA ∧
        t.circB = s.circB ∧ t.fill = s.fill ∧ t.safety = s.safety ∧ t.events = s.events ∧
        t.line.pendingFrame = .empty) ∧
      (s.pins.estop = true ∨ s.pins.pfw = true → t.bay = .safe ∧ t.adm.listen = none ∧
        t.safety.causes = ⟨s.pins.estop, s.pins.pfw, false, false⟩ ∧
        t.safety.first = some (if s.pins.estop then .estop else .pfw) ∧ outputsOff t ∧
        ∃ n, t.safety.snapshot = some n ∧ n.left = .listen ∧ n.time = 0 ∧
          n.cause = (if s.pins.estop then .estop else .pfw)) ∧
      (s.pins.pfw = true → s.safety.silence = .quiet →
        t.safety.silence = .leavePending ∧ t.line.pendingFrame.code = 2)

/-! ### Commands on jobs -/

/-- LOAD_JOB: FULL with a job staged; BAD_ARG for a record that fails, with the compartment and the code of
the first check of R7 that fails, the record's own two first, then compartment by compartment; else every field
is kept from its bytes and the job is staged, or promoted at once into an EMPTY ACTIVE slot when its
reservation fits, raising JOB_PROMOTED; when it does not fit, CERT_WAIT carries n and the byte excess (R5, R6,
R7, R9, R10, R164). -/
def Obligations.LoadJobStagesOrPromotes : Prop :=
  ∀ (b : List Byte) (s : State), bodyFits b → inExchange s → inYard s →
    (s.jobs.staged ≠ none →
      exec (.loadJob (requestOf b)) s = .next (answeredWith s .full [])) ∧
    (∀ comp code, s.jobs.staged = none → checkJob s.store b = .error (comp, code) →
      exec (.loadJob (requestOf b)) s =
        .next (answeredWith s .badArg [BitVec.ofNat 8 comp, BitVec.ofNat 8 code])) ∧
    (∀ comp code, s.jobs.staged = none →
      (b.length < 5 ∧ comp = 0 ∧ code = 2 ∨
        5 ≤ b.length ∧ (byteAt b 4 = 0 ∨ 6 < byteAt b 4) ∧ comp = 0 ∧ code = 1 ∨
        5 ≤ b.length ∧ 1 ≤ byteAt b 4 ∧ byteAt b 4 ≤ 6 ∧ b.length ≠ 5 + 6 * byteAt b 4 ∧
          comp = 0 ∧ code = 2 ∨
        jobHeaderRight b ∧ ∃ j, j < byteAt b 4 ∧ compFault s.store b j = some code ∧
          (∀ m, m < j → compFault s.store b m = none) ∧ comp = j + 1) →
      exec (.loadJob (requestOf b)) s =
        .next (answeredWith s .badArg [BitVec.ofNat 8 comp, BitVec.ofNat 8 code])) ∧
    (s.jobs.staged = none → jobHeaderRight b →
      (∀ m, m < byteAt b 4 → compFault s.store b m = none) →
      ∃ (cs : List LoadedComp) (j : StagedJob), j = ⟨countAt b 0, false, cs⟩ ∧
        checkJob s.store b = .ok j ∧ cs.length = byteAt b 4 ∧
        (∀ m c, cs[m]? = some c → compLaid s.store b m c) ∧
        (∀ a, s.jobs.active = some a →
          exec (.loadJob (requestOf b)) s =
            .next (answeredWith { s with jobs := { s.jobs with staged := some j } } .ok [])) ∧
        (s.jobs.active = none →
          s.certs.records.length + s.certs.reservedRecords + cs.length ≤ 24 →
          s.certs.recordBytes + s.certs.reservedBytes + 252 * cs.length ≤ 4096 →
          ∃ ev, exec (.loadJob (requestOf b)) s =
            .next (answeredWith
              { s with
                jobs := { s.jobs with active := some j.promoted }
                certs :=
                  { s.certs with
                    reservedRecords := cs.length
                    reservedBytes := 252 * cs.length }
                events := ev } .ok []) ∧
            j.promoted.running = false ∧ j.promoted.tag = j.tag ∧
            j.promoted.comps.map (fun c => c.loaded) = cs ∧
            (∀ c ∈ j.promoted.comps, c.state = .queued ∧ c.owner = none ∧ c.reason = .none ∧
              c.retriesUsed = 0 ∧ c.revolutions = 0 ∧ c.entries = [] ∧ c.fillEntry = none) ∧
            (s.events.records.length < 32 →
              ∃ e, ev.records = s.events.records ++ [e] ∧ e.kind = .jobPromoted ∧
                e.d0.toNat = cs.length ∧ e.d1.toNat = j.tag.toNat % 256 ∧
                e.d2.toNat = j.tag.toNat / 256 % 256 ∧ e.time = s.ms)) ∧
        (s.jobs.active = none →
          24 < s.certs.records.length + s.certs.reservedRecords + cs.length ∨
            4096 < s.certs.recordBytes + s.certs.reservedBytes + 252 * cs.length →
          ∃ ev excess, exec (.loadJob (requestOf b)) s =
            .next (answeredWith
              { s with
                jobs := { s.jobs with staged := some { j with waitMark := true } }
                events := ev } .ok []) ∧
            excess = s.certs.recordBytes + s.certs.reservedBytes + 252 * cs.length - 4096 ∧
            (s.events.records.length < 32 →
              ∃ e, ev.records = s.events.records ++ [e] ∧ e.kind = .certWait ∧
                e.d0.toNat = cs.length ∧ e.d1.toNat = excess % 256 ∧
                e.d2.toNat = excess / 256 % 256 ∧ e.time = s.ms)))

/-- An accepted job record keeps every drop to one compartment, and no handled compartment asks for a
FORBIDDEN change or an empty recipe (R7 checks 3 to 8). -/
def Obligations.LoadedJobsAreSound : Prop :=
  ∀ (st : RecipeStore) (b : List Byte) (j : StagedJob), checkJob st b = .ok j →
    (j.comps.filter fun c => c.drop ≠ 0).Pairwise (fun c d => c.drop ≠ d.drop) ∧
    ∀ c ∈ j.comps, c.prior ≤ 15 ∧ c.next ≤ 15 ∧ c.drop ≤ 8 ∧ c.fillLine ≤ 4 ∧
      (c.fillLine = 0 → c.fillVolume = 0) ∧
      (c.fillLine ≠ 0 → c.drop ≠ 0 ∧ 1 ≤ c.fillVolume ∧ c.fillVolume ≤ 40000) ∧
      (c.drop = 0 → c.stored = .absent) ∧
      (c.drop ≠ 0 →
        (c.stored = .noRecipe ∧ st.entry c.prior c.next = .noRecipe) ∨
        ∃ i r, c.stored = .recipe i ∧ st.entry c.prior c.next = .recipe i ∧
          st.recipe? i = some r)

/-- CANCEL_STAGED discards a staged job with its wait mark and answers OK, or answers EMPTY; nothing else
changes. Outside LISTEN, LIVE and SAFE it is refused. Taken before a promotion, it leaves that promotion
nothing staged; taken after one, it finds the slot EMPTY and the job stays the active job (R8). -/
def Obligations.CancelStagedDiscards : Prop :=
  ∀ (b : List Byte) (s : State), bodyFits b → inExchange s →
    (inYard s → s.jobs.staged ≠ none →
      exec (.cancelStaged (requestOf b)) s =
        .next (answeredWith { s with jobs := { s.jobs with staged := none } } .ok [])) ∧
    (inYard s → s.jobs.staged = none →
      exec (.cancelStaged (requestOf b)) s = .next (answeredWith s .empty [])) ∧
    (s.bay = .setup →
      exec (.cancelStaged (requestOf b)) s = .next (answeredWith s .refusedState [255, 0])) ∧
    (s.bay = .resetting →
      exec (.cancelStaged (requestOf b)) s = .next (answeredWith s .resetting [])) ∧
    (∀ t, exec (.cancelStaged (requestOf b)) s = .next t → inYard s → tryPromote t = t) ∧
    ∀ j, inYard s → s.jobs.active = none → s.jobs.staged = some j →
      s.certs.fits j.comps.length = true →
      exec (.cancelStaged (requestOf b)) (tryPromote s) =
          .next (answeredWith (tryPromote s) .empty []) ∧
        (tryPromote s).jobs.active = some j.promoted ∧ (tryPromote s).jobs.staged = none

/-- POSITION: refused with the slot state unless the job awaits it. A job all of recipes goes to RUNNING
with no compartment ended, and each idle circuit takes the lowest-numbered one of its drops. A job all of
NONE with fill lines waits to be filled, and the idle fill controller takes the first. A job all of drop 0
ends at once with the result PASS, a record and its events a compartment (R11, R12, R15, R16, R17, R20,
R21). -/
def Obligations.PositionRunsJob : Prop :=
  ∀ (b : List Byte) (s : State), bodyFits b → inExchange s → inYard s →
    (s.jobs.active = none →
      exec (.position (requestOf b)) s = .next (answeredWith s .refusedState [0])) ∧
    (∀ j, s.jobs.active = some j → j.running = true →
      exec (.position (requestOf b)) s = .next (answeredWith s .refusedState [2])) ∧
    (∀ tag cs, s.jobs.active = some ⟨tag, false, cs.map Comp.promoted⟩ →
      (∀ c ∈ cs, ∃ r, c.stored = .recipe r) →
      ∃ t j, exec (.position (requestOf b)) s = .next (answeredWith t .ok []) ∧
        t.jobs.active = some j ∧ j.running = true ∧ j.tag = tag ∧
        j.comps.map (fun c => c.loaded) = cs ∧ (∀ c ∈ j.comps, c.state.terminal = false) ∧
        t.certs = s.certs ∧ t.events = s.events ∧ t.bay = s.bay ∧ t.jobs.staged = s.jobs.staged ∧
        t.peers = s.peers ∧ t.line = s.line ∧
        (s.fill.order = [] → ∀ c : Side, (s.circ c).state = .idle →
          (nothingQueued s c → t.circ c = s.circ c) ∧
          ∀ i k, nextQueued s c i k → s.conn k.loaded.drop = false → circTook s t c i k)) ∧
    (∀ tag lc rest, s.jobs.active = some ⟨tag, false, (lc :: rest).map Comp.promoted⟩ →
      (∀ c ∈ lc :: rest, c.stored = .noRecipe ∧ c.fillLine ≠ 0) → s.fill.state = .idle →
      s.fill.order = [] → s.conn lc.drop = false →
      ∃ t, exec (.position (requestOf b)) s = .next (answeredWith t .ok []) ∧
        fillTook s t s.fill.trails 1 (Comp.promoted lc)
          ((List.range rest.length).map fun m => m + 2) ∧
        (∀ m c, rest[m]? = some c →
          t.comp? (m + 2) = some { Comp.promoted c with state := .fillWait }) ∧
        t.circA = s.circA ∧ t.circB = s.circB ∧ t.certs = s.certs ∧ t.events = s.events) ∧
    ∀ tag cs, s.jobs.active = some ⟨tag, false, cs.map Comp.promoted⟩ → cs ≠ [] →
      s.jobs.staged = none → (∀ c ∈ cs, c.stored = .absent) →
      ∃ t, exec (.position (requestOf b)) s = .next (answeredWith t .ok []) ∧
        jobEndedAtOnce s t tag cs .skipped .none .pass ∧
        t.fill = { s.fill with order := [] } ∧
        t.circA = s.circA ∧ t.circB = s.circB ∧ t.adm = s.adm ∧ t.bay = s.bay

/-- ABORT_COMP: refusals as R22 gives. A QUEUED compartment, one in FILL_WAIT, or one waiting for its drop
becomes ABORTED(HOST) with its record appended; a step or a fill under way is cut, by the state of its circuit
or of the fill controller; ENDING and terminal ones are left alone (R20, R22, R49, R50, R99). That the detail
with no active job is free is log 7; what counts as nothing delivered is notes/assumptions/38.md; that a
circuit or the fill controller back in IDLE keeps or clears its fields as circEnded and fillEnded say is the
model's reading, notes/assumptions/18.md. -/
def Obligations.AbortCompByState : Prop :=
  ∀ (b : List Byte) (n : Byte) (s : State), bodyFits b → inExchange s → inYard s →
    (b.length ≠ 1 → exec (.abortComp (requestOf b)) s = .next (answeredWith s .badArg [])) ∧
    (s.jobs.active = none →
      ∃ detail : Byte, exec (.abortComp (requestOf [n])) s =
        .next (answeredWith { s with drawn := s.drawn + 1 } .refusedState [detail])) ∧
    (∀ j, s.jobs.active = some j → n.toNat = 0 ∨ j.comps.length < n.toNat →
      exec (.abortComp (requestOf [n])) s = .next (answeredWith s .badArg [n])) ∧
    ∀ k, s.comp? n.toNat = some k →
      (k.state = .ending ∨ k.state.terminal = true →
        exec (.abortComp (requestOf [n])) s = .next (answeredWith s .ok [])) ∧
      (∀ (c : Side) (step : Step), k.state = .washing → k.owner = some (sideConsumer c) →
        (s.circ c).comp = n.toNat → s.stepOf c = some step → (s.circ c).runOut = none →
        (s.circ c).state = .running ∨ (s.circ c).state = .admitting ∨ (s.circ c).state = .paused →
        ∃ t, exec (.abortComp (requestOf [n])) s = .next (answeredWith t .ok []) ∧
          t.pins = s.pins ∧ washingCut s t c n.toNat k step .aborted .host) ∧
      (k.state = .filling → s.fill.comp = n.toNat →
        ∃ t, exec (.abortComp (requestOf [n])) s = .next (answeredWith t .ok []) ∧
          t.pins = s.pins ∧ fillingCut s t n.toNat k .aborted .host .abort) ∧
      (∀ c : Side, k.state = .waitDrop → k.owner = some (sideConsumer c) →
        (s.circ c).comp = n.toNat → jobGoesOn s n.toNat → nothingQueued s c →
        ∃ t, exec (.abortComp (requestOf [n])) s = .next (answeredWith t .ok []) ∧
          t.pins = s.pins ∧ t.fill = s.fill ∧
          circEnded s t c n.toNat k (s.circ c).entries .aborted .host) ∧
      (k.state = .waitDrop → k.owner = some .fill → s.fill.comp = n.toNat →
        s.fill.started = false → s.fill.order = [] → jobGoesOn s n.toNat →
        ∃ t, exec (.abortComp (requestOf [n])) s = .next (answeredWith t .ok []) ∧
          t.pins = s.pins ∧ fillLeft s t n.toNat k .aborted .host) ∧
      (k.state = .queued ∨ k.state = .fillWait → jobGoesOn s n.toNat →
        ∃ t, exec (.abortComp (requestOf [n])) s = .next (answeredWith t .ok []) ∧
          t.comp? n.toNat = some { k with state := .aborted, owner := none, reason := .host } ∧
          (∀ m, m ≠ n.toNat → t.comp? m = s.comp? m) ∧
          recordAdded n.toNat { k with state := .aborted, owner := none, reason := .host } s t ∧
          t.fill =
            (if k.state = .queued then s.fill
              else { s.fill with order := s.fill.order.erase n.toNat }) ∧
          t.circA = s.circA ∧ t.circB = s.circB ∧ t.adm = s.adm ∧ t.bay = s.bay)

/-- ABORT_JOB deals with each compartment as ABORT_COMP would, by its state and its owner's, and nothing takes
a compartment meanwhile: a circuit or the fill controller whose compartment ends at once stays IDLE. A record
is written for every compartment made ABORTED(HOST) at once, in compartment order. With a run-out to count the
job goes on; without one it ends FAIL within the command, the previous result shifted, JOB_ENDED last. On a job
whose compartments are all QUEUED it is given whole (R20, R21, R22, R23, R50, R99). That its REFUSED_STATE with
no active job has one free detail is the model's choice, notes/assumptions/7.md; what counts as nothing
delivered, notes/assumptions/38.md. -/
def Obligations.AbortJobEndsQueuedJob : Prop :=
  ∀ (b : List Byte) (s : State), bodyFits b → inExchange s → inYard s →
    (s.jobs.active = none →
      ∃ detail : Byte, exec (.abortJob (requestOf b)) s =
        .next (answeredWith { s with drawn := s.drawn + 1 } .refusedState [detail])) ∧
    (∀ tag running cs, s.jobs.active = some ⟨tag, running, cs.map Comp.promoted⟩ → cs ≠ [] →
      s.jobs.staged = none →
      ∃ t, exec (.abortJob (requestOf b)) s = .next (answeredWith t .ok []) ∧
        jobEndedAtOnce s t tag cs .aborted .host .fail ∧
        t.circA = s.circA ∧ t.circB = s.circB ∧ t.adm = s.adm ∧ t.fill.order = []) ∧
    ∀ j, s.jobs.active = some j → s.jobs.staged = none → ownersRight s →
      (∃ i k, s.comp? i = some k ∧ k.state.terminal = false) →
      ∃ t, exec (.abortJob (requestOf b)) s = .next (answeredWith t .ok []) ∧
        recordsWritten s t (abortEndsNow s) (fun _ => abortLeaves s) ∧ abortFrees s t ∧
        t.bay = s.bay ∧ t.ms = s.ms ∧ t.pins = s.pins ∧ t.config = s.config ∧ t.store = s.store ∧
        t.peers = s.peers ∧ t.line = s.line ∧ t.safety = s.safety ∧ t.sticky = s.sticky ∧
        ((∃ i k, s.comp? i = some k ∧ k.state.terminal = false ∧ abortEndsNow s k = false) →
          (∃ l, t.jobs = { s.jobs with active := some { j with comps := l } } ∧
            l.length = j.comps.length) ∧
          ∀ i k, s.comp? i = some k → ∃ k', t.comp? i = some k' ∧ abortLeaves s k k') ∧
        ((∀ i k, s.comp? i = some k → k.state.terminal = false → abortEndsNow s k = true) →
          t.jobs = ⟨none, none, .fail, s.jobs.last⟩ ∧
          (s.events.records.length + 3 * j.comps.length + 1 ≤ 32 →
            ∃ before e, t.events.records = s.events.records ++ before ++ [e] ∧
              e.kind = .jobEnded ∧ e.d0.toNat = JobResult.fail.code ∧
              e.d1.toNat = (s.comps.countP fun q => decide (q.state = .done)) % 256 ∧
              e.d2.toNat = 0 ∧ e.time = s.ms))

/-! ### SAFE and the resets -/

/-- A cause arriving in LISTEN or LIVE, by ESTOP, by PFW or by the SAFE command, puts the bay into SAFE:
that one cause, the snapshot of every block as it stood, every output de-energised, every claim released with
the circuits' needs kept, a step in ADMIT or RUN PAUSED with its pause counted, a fill under way INTERRUPTED or
left to its run-out by its close kind, SAFE_ENTERED raised (R47, R97, R118, R173 to R177). -/
def Obligations.CausesEnterSafe : Prop :=
  ∀ (c : Cause) (i : Instr) (b : List Byte) (s : State), notStopped s →
    (c = .estop ∧ i = .estopAsserted ∧ s.pins.estop = false ∨
      c = .pfw ∧ i = .pfwAsserted ∧ s.pins.pfw = false ∨
      c = .safeCmd ∧ i = .safeStop (requestOf b) ∧ bodyFits b ∧ inExchange s) →
    ∃ t n, exec i s = .next t ∧ t.bay = .safe ∧ t.safety.causes = CauseSet.empty.with c ∧
      t.safety.first = some c ∧ t.safety.snapshot = some n ∧ n.cause = c ∧ n.time = s.ms ∧
      n.left = s.bay ∧ circShown s.circA n.a ∧ circShown s.circB n.b ∧
      n.fillComp = s.fill.comp ∧ n.fillState = s.fill.state ∧
      n.fillVolume = s.fill.pulses / s.cfg.fillMeter ∧ outputsOff t ∧
      (∀ k, (t.claim k).committed = .zero ∧ (t.claim k).state ≠ .intent ∧
        (t.claim k).state ≠ .satisfied) ∧
      (∀ d, (t.claim (sideConsumer d)).need = (s.claim (sideConsumer d)).need ∧
        ((t.claim (sideConsumer d)).state = .idle ↔ (s.claim (sideConsumer d)).state = .idle) ∧
        (t.claim (sideConsumer d)).waitStart =
          (if (s.claim (sideConsumer d)).state = .satisfied then s.adm.tick
            else (s.claim (sideConsumer d)).waitStart)) ∧
      t.adm.settle = none ∧ t.adm.listen = none ∧ t.adm.announce = s.adm.announce ∧
      (∀ d, ((s.circ d).state = .running ∨ (s.circ d).state = .admitting →
          pausedFrom (s.circ d) (t.circ d)) ∧
        ((s.circ d).state ≠ .running → (s.circ d).state ≠ .admitting → t.circ d = s.circ d)) ∧
      fillAtSafe s t ∧ t.fill.state ≠ .flowing ∧ t.fill.state ≠ .awaitSkid ∧
      t.fill.pulses = s.fill.pulses ∧
      t.jobs = s.jobs ∧ t.certs = s.certs ∧ t.peers = s.peers ∧ t.config = s.config ∧
      (s.events.records.length < 32 →
        ∃ e, t.events.records = s.events.records ++ [e] ∧ e.kind = .safeEntered ∧
          e.d0.toNat = c.bit ∧ e.d1.toNat = s.bay.code ∧ e.time = s.ms) ∧
      (c = .pfw → s.safety.silence = .quiet →
        t.safety.silence = .leavePending ∧ t.line.pendingFrame.code = 2)

/-- In SAFE a further ESTOP joins the set and nothing else changes; a PFW from QUIET also has a LEAVE
handed. In SETUP and RESETTING either changes its pin alone. ESTOP and PFW deasserting leave every cause,
and end a silence (R173, R178, R179). -/
def Obligations.CausesJoinInSafe : Prop :=
  ∀ s : State,
    (s.bay = .setup ∨ s.bay = .resetting →
      (s.pins.estop = false →
        exec .estopAsserted s = .next { s with pins := { s.pins with estop := true } }) ∧
      (s.pins.pfw = false →
        exec .pfwAsserted s = .next { s with pins := { s.pins with pfw := true } })) ∧
    (s.bay = .safe → s.pins.estop = false →
      exec .estopAsserted s =
        .next { s with
          pins := { s.pins with estop := true }
          safety := { s.safety with causes := { s.safety.causes with estop := true } } }) ∧
    (s.bay = .safe → s.pins.pfw = false → s.safety.silence = .quiet →
      ∃ t, exec .pfwAsserted s = .next t ∧ t.safety.causes = { s.safety.causes with pfw := true } ∧
        t.safety.first = s.safety.first ∧ t.safety.snapshot = s.safety.snapshot ∧
        t.safety.silence = .leavePending ∧ t.line.pendingFrame.code = 2 ∧ t.bay = .safe ∧
        t.jobs = s.jobs ∧ t.circA = s.circA ∧ t.circB = s.circB ∧ t.fill = s.fill ∧
        t.adm = s.adm ∧ t.events = s.events) ∧
    exec .estopDeasserted s = .next { s with pins := { s.pins with estop := false } } ∧
    (s.safety.silence = .silent →
      exec .pfwDeasserted s =
        .next { s with
          pins := { s.pins with pfw := false }
          safety := { s.safety with silence := .quiet }
          line := { s.line with hold := false } }) ∧
    (s.safety.silence ≠ .silent →
      exec .pfwDeasserted s = .next { s with pins := { s.pins with pfw := false } })

/-- RESUME is refused with the set of what forbids it, and changes nothing then; else it clears causes,
snapshot and override, hands a roll call, and puts the bay into LISTEN with both timers started and the
tick count kept. A paused step whose claim is IDLE enters RUN, its counts by the hold limit; another circuit
is unchanged. An INTERRUPTED fill ends HIGH_LEVEL, or by its volume when that is no less than the preset less
the tolerance, or asks for its line again; a fill in another state is unchanged (R48, R98, R131, R181,
R182). -/
def Obligations.ResumeLeavesSafe : Prop :=
  ∀ (b : List Byte) (s : State), bodyFits b → inExchange s → s.bay = .safe →
    ((s.pins.estop = true ∨ s.pins.pfw = true ∨ s.safety.causes.clash = true) →
      exec (.resume (requestOf b)) s =
        .next (answeredWith s .refusedState
          [BitVec.ofNat 8 ((if s.pins.estop then 1 else 0) + (if s.pins.pfw then 2 else 0) +
            (if s.safety.causes.clash then 8 else 0))])) ∧
    (s.pins.estop = false → s.pins.pfw = false → s.safety.causes.clash = false →
      ∃ t, exec (.resume (requestOf b)) s = .next (answeredWith t .ok []) ∧ t.bay = .listen ∧
        t.safety = ⟨.empty, none, none, .quiet, false⟩ ∧ t.line.hold = false ∧
        t.adm.listen = some (3 * s.cfg.period) ∧
        t.adm.announce = some ((s.ownAddr.getD 0).toNat * s.cfg.period / 16) ∧
        t.adm.tick = s.adm.tick ∧ t.line.rollCall.isSome = true ∧
        t.line.pendingFrame = s.line.pendingFrame ∧ t.peers = s.peers ∧ t.config = s.config ∧
        t.adm.claimA = s.adm.claimA ∧ t.adm.claimB = s.adm.claimB ∧
        (∀ (c : Side) (st : Step), (s.circ c).state = .paused →
          (s.claim (sideConsumer c)).state = .idle → s.stepOf c = some st → runEntered s t c st) ∧
        (∀ c : Side, (s.circ c).state ≠ .paused ∨ (s.claim (sideConsumer c)).state ≠ .idle →
          t.circ c = s.circ c) ∧
        (s.fill.state ≠ .interrupted →
          t.fill = s.fill ∧ t.jobs = s.jobs ∧ t.certs = s.certs ∧
          t.adm.claimFill = s.adm.claimFill) ∧
        (∀ (i v : Nat) (k : Comp), s.fill.state = .interrupted → s.fill.comp = i →
          s.comp? i = some k → v = s.fill.pulses / s.cfg.fillMeter →
          (s.fill.closeKind = .high ∨ s.fill.preset ≤ v + s.cfg.fillTolerance →
            jobGoesOn s i → s.fill.order = [] → s.fill.started = true →
            ∃ e : FillEntry,
              t.comp? i =
                some { k with
                  fillEntry := some e, state := .done, owner := none, reason := .none } ∧
              e.outcome = (if s.fill.closeKind = .high then .highLevel
                else volumeOutcome s.fill.preset s.cfg.fillTolerance v) ∧
              e.finalVolume = v ∧ e.preset = s.fill.preset ∧ e.line = s.fill.line ∧
              e.volumeAtClose = s.fill.volumeAtClose ∧
              e.interruptions = min (s.fill.interruptions + 1) 255 ∧
              (∀ m, m ≠ i → t.comp? m = s.comp? m) ∧
              t.fill = .reset s.fill.trails s.fill.dropSel ∧ t.adm.claimFill.need = .zero ∧
              ∃ (j : ActiveJob) (record : List Byte), s.jobs.active = some j ∧
                recordLaidOut record j.tag i
                  { k with fillEntry := some e, state := .done, owner := none, reason := .none } ∧
                t.certs.records = s.certs.records ++ [record]) ∧
          (s.fill.closeKind ≠ .high → v + s.cfg.fillTolerance < s.fill.preset →
            s.fill.line ≠ 0 → s.adm.claimFill.need = .zero → s.adm.claimFill.committed = .zero →
            s.adm.claimFill.state = .idle →
            t.fill =
              { s.fill with
                state := .admitting
                closeKind := .none
                interruptions := min (s.fill.interruptions + 1) 255
                dropWait := none } ∧
            t.adm.claimFill.need = ⟨0, 0, 0, s.fill.line⟩ ∧
            t.adm.claimFill.state = .waiting ∧ t.adm.claimFill.waitStart = s.adm.tick ∧
            t.jobs = s.jobs ∧ t.certs = s.certs)))

/-- RESET: from SETUP the sequence ends at once; from LISTEN, LIVE or SAFE the bay is in RESETTING with its
outputs off, the event queue and the claims cleared, a record written for every compartment not yet terminal,
in compartment order, as ABORTED(RESET) with the entries its circuit has closed and the fill entry of a fill
that asserted DEMAND, a LEAVE pending and the leave timer running (R27, R124, R195). That the job store, the
circuits and the claims have their soft reset values already in RESETTING is the model's choice,
notes/assumptions/21.md. -/
def Obligations.ResetBegins : Prop :=
  ∀ (b : List Byte) (s : State), bodyFits b → inExchange s →
    (s.bay = .setup →
      ∃ t, exec (.reset (requestOf b)) s = .next (answeredWith t .ok []) ∧ t.bay = .setup ∧
        t.config = s.config ∧ t.store = s.store ∧ t.fill.trails = s.fill.trails ∧
        t.leaveTimer = none ∧ t.line = .reset) ∧
    (inYard s → s.leaveTimer = none →
      ∃ t, exec (.reset (requestOf b)) s = .next (answeredWith t .ok []) ∧ t.bay = .resetting ∧
        outputsOff t ∧ t.events = ⟨[], false⟩ ∧ t.jobs = ⟨none, none, .none, .none⟩ ∧
        (∀ k, (t.claim k).committed = .zero ∧ (t.claim k).state = .idle) ∧
        t.adm.announce = none ∧ t.adm.listen = none ∧ t.adm.settle = none ∧
        t.safety.silence = .quiet ∧ t.line.hold = false ∧ t.line.rollCall = none ∧
        t.line.pendingFrame.code = 2 ∧ t.leaveTimer = some (2 * s.cfg.period) ∧
        ((∀ content a b x, s.line.pendingFrame ≠ .leave content a b x) →
          ∃ content, t.line.pendingFrame = .leave content false true false ∧
            content.length = 19 ∧ byteAt content 0 = (s.ownAddr.getD 0).toNat ∧
            byteAt content 1 = 36 + (if s.pins.derate then 64 else 0) ∧
            byteAt content 2 = s.cfg.capSet % 256 ∧
            (∀ o, 3 ≤ o → o ≤ 17 → byteAt content o = 0) ∧ byteAt content 18 = 255) ∧
        t.fill.trails = s.fill.trails ∧ t.circA.dropSel = s.circA.dropSel ∧
        t.config = s.config ∧ t.store = s.store ∧ t.peers = s.peers ∧ t.ms = s.ms ∧
        recordsWritten s t (fun k => !k.state.terminal) (resetLeaves s))

/-- The soft reset ends at the leave timer or at the sent report of its LEAVE, with the same state either
way: SETUP with the soft reset values, the admission unit at its reset values with the effective capacities
of the kept configuration; the configuration, the store, the trails, the selectors, the records, the pins and
the port kept. Outside RESETTING, or with the timer stopped, the leave timer's row has no effect (R126, R170,
R196). -/
def Obligations.SoftResetEnds : Prop :=
  (∀ (s : State) (i : Instr), s.bay = .resetting →
    (i = .leaveTimerExpiry ∧ s.leaveTimer ≠ none ∨
      i = .frameSent ∧ (∃ a, s.line.attempt = some a ∧ a.frame = .leave) ∧
        ∃ c x t, s.line.pendingFrame = .leave c x true t) →
    ∃ t, exec i s = .next t ∧ t.bay = .setup ∧ t.ms = 0 ∧ t.ownAddr = none ∧ t.sticky = .clear ∧
      t.jobs = ⟨none, none, .none, .none⟩ ∧ t.circA = .reset s.circA.dropSel ∧
      t.circB = .reset s.circB.dropSel ∧ t.fill = .reset s.fill.trails s.fill.dropSel ∧
      t.adm = Admission.reset.withCapacities s.cfg s.pins.derate ∧
      (∀ k, t.claim k = ⟨.zero, .zero, .idle, 0, false, none⟩) ∧ t.adm.newestAge = 255 ∧
      t.adm.effDrain = s.cfg.capDrain ∧
      (s.pins.derate = false →
        t.adm.effHeat = s.cfg.capHeat ∧ t.adm.effFlow = s.cfg.capFlow) ∧
      (s.pins.derate = true →
        t.adm.effHeat = s.cfg.capHeat * s.cfg.heatPercent / 100 ∧
        t.adm.effFlow = s.cfg.capFlow * s.cfg.flowPercent / 100) ∧
      t.adm.settle = none ∧ t.adm.announce = none ∧ t.adm.listen = none ∧ t.adm.tick = 0 ∧
      t.peers = [] ∧ t.line = .reset ∧ t.certs = ⟨s.certs.records, 0, 0⟩ ∧
      t.safety = ⟨.empty, none, none, .quiet, false⟩ ∧ t.events = ⟨[], false⟩ ∧
      t.leaveTimer = none ∧ t.config = s.config ∧ t.store = s.store ∧ t.pins = s.pins ∧
      t.port = s.port ∧ t.frontEnd = s.frontEnd ∧ outputsOff t) ∧
  ∀ s : State, s.bay ≠ .resetting ∨ s.leaveTimer = none → exec .leaveTimerExpiry s = .next s

/-- POWER_ON_RESET: RESETN asserted and then deasserted. While RESETN is asserted every output is held,
SDO at 0, YLD at 1 and ATTN deasserted, SELN asserting begins no exchange the part takes, and one in progress
is cut. From the deassertion every block has its power-on values, the prepared response OK with length 0, an
exchange in progress not taken (R197). That the other pins and the waiting commands stay is the model's
choice, notes/assumptions/11.md, and so is that no command is taken between the two, notes/assumptions/34.md. -/
def Obligations.PowerOnResets : Prop :=
  ∀ s : State,
    (s.pins.resetn = true →
      outputsOff s ∧ (∀ k, s.sdo k = false) ∧ s.yld = true ∧ s.attn = false ∧
      ∀ x, x = s.port.exchange → x = .none ∨ x = .notTaken →
        exec .exchangeStart s = .next { s with port := { s.port with exchange := .notTaken } } ∧
        ∀ i q, requestIn i = some q →
          exec i s = .next { s with port := { s.port with exchange := .none, shiftOut := none } }) ∧
    (assertResetn s).pins = { s.pins with resetn := true } ∧
    (assertResetn s).port.shiftOut = none ∧
    (assertResetn s).port.exchange = (if s.port.exchange = .none then .none else .notTaken) ∧
    ∃ t, exec .powerOnReset s = .next t ∧ t = releaseResetn (assertResetn s) ∧ t.bay = .setup ∧
      t.ms = 0 ∧ t.config = none ∧
      t.store = .reset ∧ t.jobs = .reset ∧ t.circA = .reset 1 ∧ t.circB = .reset 5 ∧
      t.fill = .reset ⟨0, 0, 0, 0⟩ 1 ∧ t.adm = .reset ∧ t.peers = [] ∧ t.line = .reset ∧
      t.certs = ⟨[], 0, 0⟩ ∧ t.safety = .reset ∧ t.events = ⟨[], false⟩ ∧ t.sticky = .clear ∧
      t.frontEnd = .reset ∧ t.port.prepared = ⟨.ok, []⟩ ∧ t.port.preparing = false ∧
      t.port.shiftOut = none ∧ (s.port.exchange ≠ .none → t.port.exchange = .notTaken) ∧
      (s.port.exchange = .none → t.port.exchange = .none) ∧
      t.pins = { s.pins with resetn := false } ∧ t.pending = s.pending ∧ outputsOff t

/-! ### Plant inputs and pulses -/

/-- DERATE asserting reduces the effective HEAT and FLOW to their percentages, raises DERATE_ON and
evaluates shedding. Nothing is shed outside LISTEN and LIVE, or where this bay is not the one to shed. Else one
wash claim is shed, for HEAT, or for FLOW when HEAT sheds nothing: the one that holds the quantity with the
latest commit tick; a step in RUN is PAUSED and CLAIM_SHED raised. DERATE deasserting restores the capacities
(R47, R104, R119, R120, R121). -/
def Obligations.DerateSwitchesCapacities : Prop :=
  ∀ s : State,
    (s.pins.derate = false →
      ∃ t, exec .derateAsserted s = .next t ∧
        t.pins = { s.pins with derate := true } ∧
        t.adm.effHeat = s.cfg.capHeat * s.cfg.heatPercent / 100 ∧
        t.adm.effFlow = s.cfg.capFlow * s.cfg.flowPercent / 100 ∧ t.adm.effDrain = s.cfg.capDrain ∧
        t.adm.claimFill = s.adm.claimFill ∧ t.fill = s.fill ∧ t.jobs = s.jobs ∧ t.certs = s.certs ∧
        workFrame s t ∧
        (¬notStopped s ∨ noShed s t.adm.eff s.adm.newestAge →
          t = raise .derateOn s.cfg.heatPercent s.cfg.flowPercent 0
            { s with
              pins := { s.pins with derate := true }
              adm := s.adm.withCapacities s.cfg true }) ∧
        (∀ c q, notStopped s → shedsNow s t.adm.eff s.adm.newestAge s.adm.tick c q →
          t.claim (sideConsumer c) =
            { s.claim (sideConsumer c) with
              committed := .zero
              shed := true
              state := .waiting
              waitStart := s.adm.tick
              commitTick := none } ∧
          (∀ d, d ≠ c → t.claim (sideConsumer d) = s.claim (sideConsumer d)) ∧
          ∃ e, shedTold s t c q e ∧
            (s.events.records.length + 2 ≤ 32 →
              ∃ a, t.events.records = s.events.records ++ [a, e] ∧ a.kind = .derateOn ∧
                a.d0.toNat = s.cfg.heatPercent % 256 ∧ a.d1.toNat = s.cfg.flowPercent % 256 ∧
                a.time = s.ms))) ∧
    (s.pins.derate = true →
      exec .derateDeasserted s =
        .next (raise .derateOff 0 0 0
          { s with
            pins := { s.pins with derate := false }
            adm := s.adm.withCapacities s.cfg false })) ∧
    s.adm.withCapacities s.cfg false =
      { s.adm with effHeat := s.cfg.capHeat, effFlow := s.cfg.capFlow, effDrain := s.cfg.capDrain }

/-- CONNd asserting moves the compartment that waits for drop d under a wash circuit to WASHING, and its
first step begins: PAUSED in SAFE, in RUN with no draws, else in ADMIT with its draws as the need and a
claim to wait for; one that waits under the fill controller goes to FILLING and ADMIT. With no compartment
waiting there, only the pin changes (R17, R18, R36, R87, R108). -/
def Obligations.ConnectionStartsStep : Prop :=
  ∀ (d : Drop) (s : State), s.conn d.num = false →
    ((∀ i k, s.comp? i = some k → k.loaded.drop = d.num → k.state ≠ .waitDrop) →
      exec (.connAsserted d) s =
        .next { s with pins := { s.pins with conn := setPin s.pins.conn d.num true } }) ∧
    (∀ (i : Nat) (k : Comp), s.comp? i = some k → s.compAtDrop d.num = some i →
      k.state = .waitDrop → k.owner = some .fill → s.fill.comp = i → s.fill.line ≠ 0 →
      s.adm.claimFill.need = .zero → s.adm.claimFill.state = .idle →
      s.adm.claimFill.committed = .zero →
      ∃ t, exec (.connAsserted d) s = .next t ∧
        t.pins = { s.pins with conn := setPin s.pins.conn d.num true } ∧
        t.comp? i = some { k with state := .filling } ∧ (∀ m, m ≠ i → t.comp? m = s.comp? m) ∧
        t.fill = { s.fill with state := .admitting, dropWait := none } ∧
        t.adm.claimFill.need = ⟨0, 0, 0, s.fill.line⟩ ∧ t.adm.claimFill.committed = .zero ∧
        t.adm.claimFill.state = .waiting ∧ t.adm.claimFill.waitStart = s.adm.tick ∧
        claimsFrame .fill s t ∧ t.circA = s.circA ∧ t.circB = s.circB ∧ t.certs = s.certs ∧
        t.events = s.events ∧ t.sticky = s.sticky ∧ workFrame s t) ∧
    ∀ (c : Side) (i : Nat) (k : Comp) (r : Nat) (x : Recipe) (st : Step) (rest : List Step),
      s.comp? i = some k → s.compAtDrop d.num = some i → k.state = .waitDrop →
      k.owner = some (sideConsumer c) → (s.circ c).comp = i → k.loaded.stored = .recipe r →
      s.store.recipe? r = some x → x.steps = st :: rest →
      (s.claim (sideConsumer c)).need = .zero → (s.claim (sideConsumer c)).state = .idle →
      (s.claim (sideConsumer c)).committed = .zero →
      ∃ t, exec (.connAsserted d) s = .next t ∧
        t.pins = { s.pins with conn := setPin s.pins.conn d.num true } ∧
        t.comp? i = some { k with state := .washing } ∧
        (∀ m, m ≠ i → t.comp? m = s.comp? m) ∧ (∀ e, e ≠ c → t.circ e = s.circ e) ∧
        (t.circ c).step = 1 ∧ (t.circ c).comp = i ∧ (t.circ c).dropWait = none ∧
        (t.claim (sideConsumer c)).need = ⟨st.heat, st.flow, st.drain, 0⟩ ∧
        (t.claim (sideConsumer c)).committed = .zero ∧
        (s.bay = .safe → (t.circ c).state = .paused ∧ (t.circ c).pause = some 0 ∧
          (t.circ c).rcd = { StepRecord.cleared with pauses := 1 }) ∧
        (s.bay ≠ .safe → st.heat = 0 → st.flow = 0 → st.drain = 0 →
          (t.circ c).state = .running ∧ (t.circ c).rcd = .cleared ∧
          (t.circ c).stepSecond = some 1000 ∧ (t.circ c).stallMonitor = some s.cfg.stallTime) ∧
        (s.bay ≠ .safe → 0 < st.heat ∨ 0 < st.flow ∨ 0 < st.drain →
          (t.circ c).state = .admitting ∧ (t.circ c).rcd = .cleared ∧
          (t.claim (sideConsumer c)).state = .waiting ∧
          (t.claim (sideConsumer c)).waitStart = s.adm.tick) ∧
        claimsFrame (sideConsumer c) s t ∧ t.fill = s.fill ∧ t.certs = s.certs ∧
        t.events = s.events ∧ t.sticky = s.sticky ∧ workFrame s t

/-- CONNd deasserting ends a compartment in WASHING or FILLING. A step in ADMIT, RUN or PAUSED ends CUT
and its circuit runs out carrying FAILED(DROP_LOST); PAUSED in SAFE, or with a run-out time of 0, it fails at
once. A fill in FLOWING or CLOSING closes with kind DROP_LOST, its compartment ENDING; one that asked for the
skid or was interrupted fails at once. With neither at the drop, only the pin changes (R24, R49, R50, R99).
What a circuit or the fill controller back in IDLE keeps is the model's reading, notes/assumptions/18.md; what
counts as nothing delivered, notes/assumptions/38.md. -/
def Obligations.DropLossEndsWork : Prop :=
  ∀ (d : Drop) (s : State) (p : Pins), s.conn d.num = true →
    p = { s.pins with conn := setPin s.pins.conn d.num false } →
    ((∀ i k, s.comp? i = some k → k.loaded.drop = d.num →
        k.state ≠ .washing ∧ k.state ≠ .filling) →
      exec (.connDeasserted d) s = .next { s with pins := p }) ∧
    ∀ (i : Nat) (k : Comp), s.comp? i = some k → s.compAtDrop d.num = some i →
      (∀ (c : Side) (step : Step), k.state = .washing → k.owner = some (sideConsumer c) →
        (s.circ c).comp = i → s.stepOf c = some step → (s.circ c).runOut = none →
        (s.circ c).state = .running ∨ (s.circ c).state = .admitting ∨ (s.circ c).state = .paused →
        ∃ t, exec (.connDeasserted d) s = .next t ∧ t.pins = p ∧
          washingCut s t c i k step .failed .dropLost) ∧
      (k.state = .filling → s.fill.comp = i →
        ∃ t, exec (.connDeasserted d) s = .next t ∧ t.pins = p ∧
          fillingCut s t i k .failed .dropLost .dropLost)

/-- The skid's answer: DELIV_L asserting in AWAIT_SKID on the served line enters FLOWING with the trail
used and the close point set, or CLOSING of kind HIGH when the drop's level is already high; HIGHd
asserting in FLOWING enters CLOSING of kind HIGH. Otherwise only the pin changes (R88, R89, R93). That the
row of HIGHd also carries the input's return is the model's choice, notes/assumptions/9.md. -/
def Obligations.SkidAndLevelInputs : Prop :=
  ∀ (l : FillLine) (d : Drop) (s : State),
    (s.deliv l.num = false → ¬(s.fill.state = .awaitSkid ∧ s.fill.line = l.num) →
      exec (.delivAsserted l) s =
        .next { s with pins := { s.pins with deliv := setPin s.pins.deliv l.num true } }) ∧
    (s.deliv l.num = false → s.fill.state = .awaitSkid → s.fill.line = l.num →
      s.high s.fill.dropSel = false →
      exec (.delivAsserted l) s =
        .next { s with
          pins := { s.pins with deliv := setPin s.pins.deliv l.num true }
          fill :=
            { s.fill with
              state := .flowing
              flowed := true
              trailUsed := s.fill.trails.get s.fill.line
              closePoint :=
                (s.fill.preset - s.fill.trails.get s.fill.line) * s.cfg.fillMeter
              skid := none
              noFlow := some (s.cfg.noFlowTime * 1000) } }) ∧
    (s.deliv l.num = false → s.fill.state = .awaitSkid → s.fill.line = l.num →
      s.high s.fill.dropSel = true → s.fill.runOut = none →
      exec (.delivAsserted l) s =
        .next { s with
          pins := { s.pins with deliv := setPin s.pins.deliv l.num true }
          fill :=
            { s.fill with
              state := .closing
              closeKind := .high
              volumeAtClose := s.fill.pulses / s.cfg.fillMeter
              skid := none
              noFlow := none
              runOut := some (s.cfg.fillRunOut * 1000) } }) ∧
    (s.high d.num = false → s.fill.state = .flowing → s.fill.dropSel = d.num →
      s.fill.runOut = none →
      exec (.highAsserted d true) s =
        .next { s with
          pins := { s.pins with high := setPin s.pins.high d.num true }
          fill :=
            { s.fill with
              state := .closing
              closeKind := .high
              volumeAtClose := s.fill.pulses / s.cfg.fillMeter
              skid := none
              noFlow := none
              runOut := some (s.cfg.fillRunOut * 1000) } }) ∧
    (s.high d.num = false → ¬(s.fill.state = .flowing ∧ s.fill.dropSel = d.num) →
      exec (.highAsserted d true) s =
        .next { s with pins := { s.pins with high := setPin s.pins.high d.num true } }) ∧
    (s.high d.num = true →
      exec (.highAsserted d false) s =
        .next { s with pins := { s.pins with high := setPin s.pins.high d.num false } })

/-- A fill meter pulse counts in FLOWING and CLOSING alone, the count staying at 2^32 - 1; in FLOWING it
restarts the no-flow monitor, and at the close point enters CLOSING of kind NORMAL (R89, R91, R92). -/
def Obligations.FillMeterCounts : Prop :=
  ∀ (s : State) (n : Nat), n = min (s.fill.pulses + 1) 4294967295 →
    (s.fill.state = .flowing → n < s.fill.closePoint →
      exec .fillMeterPulse s =
        .next { s with
          fill := { s.fill with pulses := n, noFlow := some (s.cfg.noFlowTime * 1000) } }) ∧
    (s.fill.state = .flowing → s.fill.closePoint ≤ n → s.fill.runOut = none →
      exec .fillMeterPulse s =
        .next { s with
          fill :=
            { s.fill with
              pulses := n
              state := .closing
              closeKind := .normal
              volumeAtClose := n / s.cfg.fillMeter
              skid := none
              noFlow := none
              runOut := some (s.cfg.fillRunOut * 1000) } }) ∧
    (s.fill.state = .closing →
      exec .fillMeterPulse s = .next { s with fill := { s.fill with pulses := n } }) ∧
    (s.fill.state ≠ .flowing → s.fill.state ≠ .closing → exec .fillMeterPulse s = .next s)

/-- A flow meter pulse and a spinner pulse act in RUN alone: the one counts, the other counts, restarts
the stall monitor, sets the spinner running and stops the stall limit. The stall monitor's expiry sets
the sticky flag, the spinner stopped, and starts the stall limit in a wash step; the stall limit's expiry
fails the step SPINNER into RUN_OUT, its revolutions added and STEP_ENDED raised (R38, R43 to R46, R49). -/
def Obligations.PulsesAndStalls : Prop :=
  (∀ (c : Side) (s : State),
    ((s.circ c).state = .running →
      exec (.flowMeterPulse c) s =
        .next (s.setCirc c { s.circ c with flowPulses := (s.circ c).flowPulses + 1 }) ∧
      exec (.spinnerPulse c) s =
        .next (s.setCirc c
          { s.circ c with
            stallMonitor := some s.cfg.stallTime
            spinning := true
            stallLimit := none
            rcd := { (s.circ c).rcd with pulses := (s.circ c).rcd.pulses + 1 } })) ∧
    ((s.circ c).state ≠ .running →
      exec (.flowMeterPulse c) s = .next s ∧ exec (.spinnerPulse c) s = .next s) ∧
    (∀ st, (s.circ c).stallMonitor ≠ none → s.stepOf c = some st → (s.circ c).stallLimit = none →
      exec (.stallMonitorExpiry c) s =
        .next { s.setCirc c
            { s.circ c with
              stallMonitor := none
              spinning := false
              stallLimit :=
                if st.kind = .rinse ∨ st.kind = .wash ∨ st.kind = .sanitize
                then some (s.cfg.stallLimit * 1000) else none } with
          sticky := { s.sticky with spinnerStall := true } }) ∧
    ((s.circ c).stallMonitor = none → exec (.stallMonitorExpiry c) s = .next s)) ∧
  ∀ (c : Side) (s : State) (st : Step),
    ((s.circ c).stallLimit = none → exec (.stallLimitExpiry c) s = .next s) ∧
    ((s.circ c).stallLimit ≠ none → s.stepOf c = some st → s.cfg.runOutTime ≠ 0 →
      (s.circ c).runOut = none →
      ∃ t, exec (.stallLimitExpiry c) s = .next t ∧
        runOutBegun s t c (s.circ c).comp (.ends .failed .spinner) ∧
        (t.circ c).entries = (s.circ c).entries ++ [s.entryOf c st .spinner] ∧
        revolutionsAdded s t c st ∧ stepEndRaised s t c .spinner ∧ t.pins = s.pins)

/-- A circuit, a claim or a pin written is read back, and every other one is left alone (R4, R33,
R105). -/
def Obligations.NamesAreSeparate : Prop :=
  (∀ (s : State) (c d : Side) (x : Circuit) (k m : Consumer) (y : Claim),
    (s.setCirc c x).circ c = x ∧ (d ≠ c → (s.setCirc c x).circ d = s.circ d) ∧
    (s.setCirc c x).claim k = s.claim k ∧ (s.setCirc c x).jobs = s.jobs ∧
    (s.setClaim k y).claim k = y ∧ (m ≠ k → (s.setClaim k y).claim m = s.claim m) ∧
    (s.setClaim k y).circ c = s.circ c) ∧
  ∀ (d e : Drop) (l m : FillLine) (level : Bool) (v : BitVec 8) (w : BitVec 4),
    pinLevel (setPin v d.num level) d.num = level ∧
    (e ≠ d → pinLevel (setPin v d.num level) e.num = pinLevel v e.num) ∧
    pinLevel (setPin w l.num level) l.num = level ∧
    (m ≠ l → pinLevel (setPin w l.num level) m.num = pinLevel w m.num)

/-- PROBE_SAMPLE gives every channel of both circuits its new reading and changes nothing else: an open
or shorted probe reads 255 at a temperature and 0 elsewhere, other values stay within the channel's range
(R52, R53). -/
def Obligations.ProbeSampleHeld : Prop :=
  ∀ (a b : Conversions) (s : State),
    ∃ x y, exec (.probeSample a b) s = .next { s with frontEnd := ⟨x, y⟩ } ∧
      ∀ (conv : Conversions) (ch : Channels), conv = a ∧ ch = x ∨ conv = b ∧ ch = y →
        (∀ (given : Conversion) (held : Nat),
          given = conv.t1 ∧ held = ch.t1 ∨ given = conv.t2 ∧ held = ch.t2 →
          (given = none → held = 255) ∧ (∀ v : Nat, given = some (v : Int) → held = min 254 v) ∧
          (∀ v : Int, v < 0 → given = some v → held = 0)) ∧
        (∀ (given : Conversion) (held limit : Nat),
          given = conv.supply ∧ held = ch.supply ∧ limit = 65535 ∨
            given = conv.ret ∧ held = ch.ret ∧ limit = 65535 ∨
            given = conv.turbidity ∧ held = ch.turbidity ∧ limit = 9999 →
          (given = none → held = 0) ∧ (∀ v : Nat, given = some (v : Int) → held = min limit v) ∧
          (∀ v : Int, v < 0 → given = some v → held = 0))

/-! ### Seconds of a step -/

/-- What measurements decide. Two readings: two valid ones within 4 agree at their mean, within 12 are
corrected to the lower, beyond that fail; one valid reading is taken alone; none is a failure (R55, R56).
A volume: SHORT below preset less tolerance, OVER above preset plus tolerance, else FILLED (R94). -/
def Obligations.MeasurementsDecide : Prop :=
  (∀ t1 t2 : Nat,
    (t1 ≤ t2 → t2 ≤ 240 → t2 ≤ t1 + 4 →
      reconcile t1 t2 = (.agree, (t1 + t2) / 2) ∧ reconcile t2 t1 = (.agree, (t1 + t2) / 2)) ∧
    (t1 + 4 < t2 → t2 ≤ 240 → t2 ≤ t1 + 12 →
      reconcile t1 t2 = (.corrected, t1) ∧ reconcile t2 t1 = (.corrected, t1)) ∧
    (t1 + 12 < t2 → t2 ≤ 240 →
      reconcile t1 t2 = (.failed, 255) ∧ reconcile t2 t1 = (.failed, 255)) ∧
    (t1 ≤ 240 → 240 < t2 →
      reconcile t1 t2 = (.corrected, t1) ∧ reconcile t2 t1 = (.corrected, t1)) ∧
    (240 < t1 → 240 < t2 → reconcile t1 t2 = (.failed, 255))) ∧
  ∀ preset tolerance volume : Nat,
    (volume + tolerance < preset → volumeOutcome preset tolerance volume = .short) ∧
    (preset + tolerance < volume → volumeOutcome preset tolerance volume = .over) ∧
    (preset ≤ volume + tolerance → volume ≤ preset + tolerance →
      volumeOutcome preset tolerance volume = .filled)

/-- STEP_SECOND on a RINSE, WASH or SANITIZE step in RUN: the flow of the second, the reconciled temperature
with its minimum, maximum and counts, the gate, the good second and the dose increment enter the record, as
given whole; the step goes on, or ends DONE, its revolutions added and STEP_ENDED raised, with the next step
begun and its draws the need, or fails on its time or its probes into RUN_OUT, which a run-out time of 0 ends
at once. On any other circuit or step it has no effect (R37 to R40, R42, R43, R49, R54 to R65; a circuit back
in IDLE keeps its record: notes/assumptions/18.md). -/
def Obligations.WashSecondEnters : Prop :=
  ∀ (c : Side) (s : State) (st : Step),
    ((s.circ c).state ≠ .running ∨ (s.circ c).stepSecond = none ∨ s.stepOf c = none →
      exec (.stepSecond c) s = .next s) ∧
    (s.stepOf c = some st → st.kind = .drain ∨ st.kind = .inspect →
      exec (.stepSecond c) s = .next s) ∧
    ((s.circ c).state = .running → (s.circ c).stepSecond ≠ none → s.stepOf c = some st →
      st.kind = .rinse ∨ st.kind = .wash ∨ st.kind = .sanitize →
      ∃ (x : Circuit) (u : State) (q temp inc : Nat) (status : ProbeStatus) (gate : Bool),
        q = min 4095 ((s.circ c).flowPulses * 60 / s.meterFactor c) ∧
        (status, temp) = reconcile (s.channels c).t1 (s.channels c).t2 ∧
        (gate = true ↔ st.qMin ≤ q ∧ (s.circ c).spinning = true ∧
          (st.kind = .rinse → st.medium = .hotWater → temp ≤ 240) ∧
          (st.kind ≠ .rinse → temp ≤ 240 ∧ st.minConc ≤ (s.channels c).supply)) ∧
        inc = (if st.kind ≠ .rinse ∧ gate = true then
          (if temp < 40 then 0 else s.store.weight st.curve (min 15 ((temp - 40) / 10))) *
            (min q st.flow * 256 / st.flow) else 0) ∧
        x =
          { s.circ c with
            heldQ := q
            flowPulses := 0
            stepSecond := some 1000
            lastTemp := temp
            lastStatus := status
            lastIncrement := inc
            lastReturn := (s.channels c).ret
            lastSupply := (s.channels c).supply
            lastTurbidity := (s.channels c).turbidity
            probeFault :=
              if status = .failed then min ((s.circ c).probeFault + 1) (s.cfg.probeFaultLimit + 1)
              else 0
            rcd :=
              { (s.circ c).rcd with
                elapsed := min ((s.circ c).rcd.elapsed + 1) 65535
                good :=
                  if gate then min ((s.circ c).rcd.good + 1) 65535 else (s.circ c).rcd.good
                dose256 := min 16777215 ((s.circ c).rcd.dose256 + inc)
                tMin := if temp ≤ 240 then min (s.circ c).rcd.tMin temp else (s.circ c).rcd.tMin
                tMax :=
                  if temp ≤ 240 then
                    (if (s.circ c).rcd.tMax = 255 then temp else max (s.circ c).rcd.tMax temp)
                  else (s.circ c).rcd.tMax
                corrected :=
                  if status = .corrected then min ((s.circ c).rcd.corrected + 1) 255
                  else (s.circ c).rcd.corrected
                failed :=
                  if status = .failed then min ((s.circ c).rcd.failed + 1) 255
                  else (s.circ c).rcd.failed } } ∧
        u =
          { s.setCirc c x with
            sticky :=
              { s.sticky with
                probeCorrected := s.sticky.probeCorrected || decide (status = .corrected)
                probeFailed := s.sticky.probeFailed || decide (status = .failed) } } ∧
        (∀ full : Prop,
          (full ↔ (st.kind = .rinse ∧ st.target ≤ x.rcd.good) ∨
            (st.kind ≠ .rinse ∧ st.target ≤ x.rcd.dose256 / 256)) →
          (¬full → x.rcd.elapsed < st.maxTime → x.probeFault ≤ s.cfg.probeFaultLimit →
            exec (.stepSecond c) s = .next u) ∧
          (full →
            ∃ t, exec (.stepSecond c) s = .next t ∧
              (t.circ c).entries = x.entries ++ [u.entryOf c st .done] ∧
              revolutionsAdded s t c st ∧ stepEndRaised s t c .done ∧
              (t.circ c).step =
                (if x.retrying then u.inspectNumber c else x.step + 1) ∧
              (t.circ c).retrying = false ∧ (t.circ c).rcd.elapsed = 0 ∧
              (t.circ c).rcd.good = 0 ∧ (t.circ c).rcd.dose256 = 0 ∧
              ((t.circ c).state = .admitting ∨ (t.circ c).state = .running ∨
                (t.circ c).state = .paused) ∧
              (∀ next, s.stepAt c (t.circ c).step = some next →
                (t.claim (sideConsumer c)).need = ⟨next.heat, next.flow, next.drain, 0⟩) ∧
              (∀ d, d ≠ c → t.circ d = s.circ d) ∧ claimsFrame (sideConsumer c) s t ∧
              t.fill = s.fill ∧ t.certs = s.certs ∧ t.pins = s.pins ∧ t.sticky = u.sticky ∧
              workFrame s t) ∧
          (¬full → st.maxTime ≤ x.rcd.elapsed ∨ s.cfg.probeFaultLimit < x.probeFault →
            (s.circ c).runOut = none →
            ∃ t reason, exec (.stepSecond c) s = .next t ∧
              reason = (if x.rcd.elapsed < st.maxTime then ResultCode.probe
                else if st.kind = .rinse then .timeShort else .doseShort) ∧
              stepEndRaised s t c reason ∧ t.pins = s.pins ∧
              (s.cfg.runOutTime ≠ 0 →
                runOutBegun u t c (s.circ c).comp (.ends .failed reason) ∧
                (t.circ c).entries = x.entries ++ [u.entryOf c st reason] ∧
                revolutionsAdded s t c st) ∧
              (∀ k, s.cfg.runOutTime = 0 → s.comp? (s.circ c).comp = some k →
                jobGoesOn s (s.circ c).comp → nothingQueued s c →
                s.fill.state ≠ .idle ∨ s.fill.order = [] →
                t.fill = s.fill ∧
                circEnded u t c (s.circ c).comp { k with revolutions := revolutionsWith s c st k }
                  (x.entries ++ [u.entryOf c st reason]) .failed reason))))

/-- The entry a circuit closes for a step, field by field: the record's counts, the whole revolutions,
the dose of a dosed kind alone, the means and the counts of an INSPECT run; and the bytes of a step entry, an
INSPECT entry and a fill entry as chapter 12.5 lays them out (R42, R46, R64, R68, R74, R78, R96, R166). -/
def Obligations.StepEntryFields : Prop :=
  (∀ (c : Side) (s : State) (st : Step) (o : ResultCode),
    (st.kind ≠ .inspect →
      s.entryOf c st o =
        .wash
          { kind := st.kind
            number := (s.circ c).step
            outcome := o
            elapsed := (s.circ c).rcd.elapsed
            good := (s.circ c).rcd.good
            dose := if st.kind = .wash ∨ st.kind = .sanitize then (s.circ c).rcd.dose256 / 256
              else 0
            tMin := (s.circ c).rcd.tMin
            tMax := (s.circ c).rcd.tMax
            corrected := (s.circ c).rcd.corrected
            failed := (s.circ c).rcd.failed
            revolutions := min 65535 ((s.circ c).rcd.pulses / s.pulsesPerRev c)
            pauses := (s.circ c).rcd.pauses }) ∧
    (∀ k, st.kind = .inspect → s.comp? (s.circ c).comp = some k →
      s.entryOf c st o =
        .inspect
          { number := (s.circ c).step
            verdict := o
            elapsed := (s.circ c).rcd.elapsed
            samples := (s.circ c).samples.n
            meanExcess := if (s.circ c).samples.n = 0 then 0
              else (s.circ c).samples.excess / (s.circ c).samples.n
            meanTurbidity := if (s.circ c).samples.n = 0 then 0
              else (s.circ c).samples.turbidity / (s.circ c).samples.n
            tMin := (s.circ c).rcd.tMin
            tMax := (s.circ c).rcd.tMax
            corrected := (s.circ c).rcd.corrected
            failed := (s.circ c).rcd.failed
            compRevolutions := k.revolutions })) ∧
  (∀ w : WashEntry, ∃ b, StepEntry.bytes (.wash w) = b ∧ b.length = 16 ∧
    byteAt b 0 = w.kind.code ∧ byteAt b 1 = w.number % 256 ∧ byteAt b 2 = w.outcome.code ∧
    wordAt b 3 = w.elapsed % 65536 ∧ wordAt b 5 = w.good % 65536 ∧ wordAt b 7 = w.dose % 65536 ∧
    byteAt b 9 = w.tMin % 256 ∧ byteAt b 10 = w.tMax % 256 ∧ byteAt b 11 = w.corrected % 256 ∧
    byteAt b 12 = w.failed % 256 ∧ wordAt b 13 = w.revolutions % 65536 ∧
    byteAt b 15 = w.pauses % 256) ∧
  (∀ w : InspectEntry, ∃ b, StepEntry.bytes (.inspect w) = b ∧ b.length = 16 ∧
    byteAt b 0 = 5 ∧ byteAt b 1 = w.number % 256 ∧ byteAt b 2 = w.verdict.code ∧
    wordAt b 3 = w.elapsed % 65536 ∧ byteAt b 5 = w.samples % 256 ∧
    wordAt b 6 = w.meanExcess % 65536 ∧ wordAt b 8 = w.meanTurbidity % 65536 ∧
    byteAt b 10 = w.tMin % 256 ∧ byteAt b 11 = w.tMax % 256 ∧ byteAt b 12 = w.corrected % 256 ∧
    byteAt b 13 = w.failed % 256 ∧ wordAt b 14 = w.compRevolutions % 65536) ∧
  ∀ e : FillEntry, ∃ b, e.bytes = b ∧ b.length = 12 ∧
    byteAt b 0 = e.line % 256 ∧ byteAt b 1 = e.outcome.code ∧ wordAt b 2 = e.preset % 65536 ∧
    wordAt b 4 = min e.finalVolume 65535 ∧ wordAt b 6 = min e.volumeAtClose 65535 ∧
    byteAt b 8 = e.trailUsed % 256 ∧ byteAt b 9 = e.interruptions % 256 ∧
    wordAt b 10 = e.duration % 65536

/-- A DRAIN step: each second adds to its elapsed count until its maximum time ends it DRAIN_LIMIT; an
asserted sump input starts the 5 s sump timer, its return stops it, and its expiry ends the step DONE. In
every case the next step begins, with STEP_ENDED raised (R41, R42). -/
def Obligations.DrainStepEnds : Prop :=
  ∀ (c : Side) (s : State) (st : Step), s.stepOf c = some st →
    (st.kind ≠ .drain → exec (.drainStepSecond c) s = .next s) ∧
    (s.pins.sump = true →
      exec .sumpEmptyDeasserted s =
        .next { s with
          pins := { s.pins with sump := false }
          circA := { s.circA with sump := none }
          circB := { s.circB with sump := none } }) ∧
    (s.pins.sump = false → (s.circ c).state = .running → st.kind = .drain → (s.circ c).sump = none →
      ∃ t, exec .sumpEmptyAsserted s = .next t ∧ t.pins = { s.pins with sump := true } ∧
        t.circ c = { s.circ c with sump := some 5000 } ∧
        (∀ d, (s.circ d).state ≠ .running → t.circ d = s.circ d) ∧ t.fill = s.fill ∧
        t.jobs = s.jobs ∧ t.adm = s.adm ∧ t.certs = s.certs ∧ t.events = s.events ∧
        workFrame s t) ∧
    (∀ x : Circuit, (s.circ c).state = .running → (s.circ c).stepSecond ≠ none → st.kind = .drain →
      x =
        { s.circ c with
          heldQ := min 4095 ((s.circ c).flowPulses * 60 / s.meterFactor c)
          flowPulses := 0
          stepSecond := some 1000
          rcd :=
            { (s.circ c).rcd with elapsed := min ((s.circ c).rcd.elapsed + 1) 65535 } } →
      (x.rcd.elapsed < st.maxTime → exec (.drainStepSecond c) s = .next (s.setCirc c x)) ∧
      (st.maxTime ≤ x.rcd.elapsed →
        ∃ t, exec (.drainStepSecond c) s = .next t ∧
          (t.circ c).entries = x.entries ++ [(s.setCirc c x).entryOf c st .drainLimit] ∧
          stepEndRaised s t c .drainLimit ∧
          (t.circ c).step =
            (if x.retrying then (s.setCirc c x).inspectNumber c else x.step + 1) ∧
          (∀ d, d ≠ c → t.circ d = s.circ d) ∧ claimsFrame (sideConsumer c) s t ∧
          t.fill = s.fill ∧ t.jobs = s.jobs ∧ t.certs = s.certs ∧ t.pins = s.pins ∧
          t.sticky = s.sticky ∧ workFrame s t)) ∧
    ((s.circ c).sump = none → exec (.sumpTimerExpiry c) s = .next s) ∧
    ((s.circ c).sump ≠ none → st.kind = .drain →
      ∃ t, exec (.sumpTimerExpiry c) s = .next t ∧
        (t.circ c).entries = (s.circ c).entries ++ [s.entryOf c st .done] ∧
        stepEndRaised s t c .done ∧
        (t.circ c).step =
          (if (s.circ c).retrying then s.inspectNumber c else (s.circ c).step + 1) ∧
        (t.circ c).rcd.elapsed = 0 ∧
        ((t.circ c).state = .admitting ∨ (t.circ c).state = .running ∨
          (t.circ c).state = .paused) ∧
        (∀ d, d ≠ c → t.circ d = s.circ d) ∧ claimsFrame (sideConsumer c) s t ∧
        t.fill = s.fill ∧ t.jobs = s.jobs ∧ t.certs = s.certs ∧ t.pins = s.pins ∧
        t.sticky = s.sticky ∧ workFrame s t)

/-- INSPECT_STEP_SECOND: a second whose flow reaches its minimum is good and, in the last ten seconds of
the run, a sample; the readings, the temperature minimum and maximum and the status counts enter the record,
as given whole; before the duration the run goes on. At the duration the verdict is taken, its entry closed
and STEP_ENDED raised: coverage first, then residue; PASS is carried into RUN_OUT, a failed residue with a
retry left begins the repeat step, any other failure carries REJECTED; a run-out time of 0 ends RUN_OUT at
once. On any other circuit or step it has no effect (R49, R71 to R81; a circuit back in IDLE keeps its record:
notes/assumptions/18.md). -/
def Obligations.InspectSecondJudges : Prop :=
  ∀ (c : Side) (s : State) (st : Step),
    ((s.circ c).state ≠ .running ∨ (s.circ c).stepSecond = none ∨ s.stepOf c = none →
      exec (.inspectStepSecond c) s = .next s) ∧
    (s.stepOf c = some st → st.kind ≠ .inspect → exec (.inspectStepSecond c) s = .next s) ∧
    ((s.circ c).state = .running → (s.circ c).stepSecond ≠ none → s.stepOf c = some st →
      st.kind = .inspect →
      ∃ (x : Circuit) (u : State) (q temp : Nat) (status : ProbeStatus) (gate : Bool),
        q = min 4095 ((s.circ c).flowPulses * 60 / s.meterFactor c) ∧
        (status, temp) = reconcile (s.channels c).t1 (s.channels c).t2 ∧
        (gate = true ↔ st.qMin ≤ q) ∧
        x =
          { s.circ c with
            heldQ := q
            flowPulses := 0
            stepSecond := some 1000
            lastTemp := temp
            lastStatus := status
            lastIncrement := 0
            lastReturn := (s.channels c).ret
            lastSupply := (s.channels c).supply
            lastTurbidity := (s.channels c).turbidity
            samples :=
              if gate = true ∧ st.target < min ((s.circ c).rcd.elapsed + 1) 65535 + 10 then
                ⟨(s.circ c).samples.n + 1,
                  (s.circ c).samples.excess + ((s.channels c).ret - (s.channels c).supply),
                  (s.circ c).samples.turbidity + (s.channels c).turbidity⟩
              else (s.circ c).samples
            rcd :=
              { (s.circ c).rcd with
                elapsed := min ((s.circ c).rcd.elapsed + 1) 65535
                good :=
                  if gate then min ((s.circ c).rcd.good + 1) 65535 else (s.circ c).rcd.good
                tMin := if temp ≤ 240 then min (s.circ c).rcd.tMin temp else (s.circ c).rcd.tMin
                tMax :=
                  if temp ≤ 240 then
                    (if (s.circ c).rcd.tMax = 255 then temp else max (s.circ c).rcd.tMax temp)
                  else (s.circ c).rcd.tMax
                corrected :=
                  if status = .corrected then min ((s.circ c).rcd.corrected + 1) 255
                  else (s.circ c).rcd.corrected
                failed :=
                  if status = .failed then min ((s.circ c).rcd.failed + 1) 255
                  else (s.circ c).rcd.failed } } ∧
        u =
          { s.setCirc c x with
            sticky :=
              { s.sticky with
                probeCorrected := s.sticky.probeCorrected || decide (status = .corrected)
                probeFailed := s.sticky.probeFailed || decide (status = .failed) } } ∧
        (x.rcd.elapsed < st.target → exec (.inspectStepSecond c) s = .next u) ∧
        (∀ (i : Nat) (k : Comp) (r : Recipe) (v : ResultCode), st.target ≤ x.rcd.elapsed →
          i = (s.circ c).comp → s.comp? i = some k → s.recipeOf i = some r →
          v = (if k.revolutions < r.coverageMin then .failCoverage
            else if x.samples.n < 5 ∨ st.excessLimit < x.samples.excess / x.samples.n ∨
              st.turbidityLimit < x.samples.turbidity / x.samples.n then .failResidue
            else .pass) →
          (s.circ c).runOut = none →
          ∃ t, exec (.inspectStepSecond c) s = .next t ∧ stepEndRaised s t c v ∧
            t.pins = s.pins ∧
            (v = .failResidue → k.retriesUsed < r.retryLimit →
              (t.circ c).entries = x.entries ++ [u.entryOf c st v] ∧
              (t.circ c).step = r.repeatIndex ∧ (t.circ c).retrying = true ∧
              (t.circ c).rcd.elapsed = 0 ∧ (t.circ c).rcd.good = 0 ∧
              (t.circ c).rcd.dose256 = 0 ∧ (t.circ c).samples = ⟨0, 0, 0⟩ ∧
              ((t.circ c).state = .admitting ∨ (t.circ c).state = .running ∨
                (t.circ c).state = .paused) ∧
              (∀ next, s.stepAt c r.repeatIndex = some next →
                (t.claim (sideConsumer c)).need = ⟨next.heat, next.flow, next.drain, 0⟩) ∧
              t.comp? i = some { k with retriesUsed := k.retriesUsed + 1 } ∧
              (∀ m, m ≠ i → t.comp? m = s.comp? m) ∧
              (∀ d, d ≠ c → t.circ d = s.circ d) ∧ claimsFrame (sideConsumer c) s t ∧
              t.fill = s.fill ∧ t.certs = s.certs ∧ t.sticky = u.sticky ∧ workFrame s t) ∧
            (∀ carried : Carried,
              v = .pass ∧ carried = .pass ∨
                (v = .failCoverage ∨ (v = .failResidue ∧ r.retryLimit ≤ k.retriesUsed)) ∧
                  carried = .ends .rejected v →
              (s.cfg.runOutTime ≠ 0 →
                runOutBegun u t c i carried ∧
                (t.circ c).entries = x.entries ++ [u.entryOf c st v]) ∧
              (s.cfg.runOutTime = 0 → nothingQueued s c →
                s.fill.state ≠ .idle ∨ s.fill.order = [] →
                (carried ≠ .pass → jobGoesOn s i →
                  t.fill = s.fill ∧
                  circEnded u t c i k (x.entries ++ [u.entryOf c st v]) .rejected v) ∧
                (carried = .pass → k.loaded.fillLine = 0 → jobGoesOn s i →
                  t.fill = s.fill ∧
                  circEnded u t c i k (x.entries ++ [u.entryOf c st v]) .done .none) ∧
                (carried = .pass → k.loaded.fillLine ≠ 0 → s.fill.state ≠ .idle →
                  sentToFill u t c i k (x.entries ++ [u.entryOf c st v]))))))

/-! ### Ends of the circuits' and the fill's work -/

/-- RUN_OUT_EXPIRY ends RUN_OUT: a carried terminal state ends the compartment with its record; a carried
PASS ends it DONE when it asks for no fill, else sends it to FILL_WAIT, behind those that wait there, or, when
none waits and the fill controller is IDLE, to the fill controller. The circuit is IDLE with need zero, and
takes the next compartment queued for its drops; with the last compartment the job ends. DROP_WAIT_EXPIRY
makes a compartment that waits too long for its drop FAILED(NO_DROP), under a wash circuit or the fill
controller (R15 to R17, R19 to R21, R49). What a circuit or the fill controller back in IDLE keeps is the
model's reading, notes/assumptions/18.md. -/
def Obligations.WaitsAndRunOutsEnd : Prop :=
  (∀ (c : Side) (s : State) (i : Nat) (k : Comp),
    ((s.circ c).runOut = none → exec (.runOutExpiry c) s = .next s) ∧
    ((s.circ c).runOut ≠ none → (s.circ c).comp = i → s.comp? i = some k →
      ∃ t, exec (.runOutExpiry c) s = .next t ∧ t.pins = s.pins ∧
        (∀ (st : CompState) (reason : ResultCode),
          (s.circ c).carried = some (.ends st reason) ∧ st.terminal = true ∨
            (s.circ c).carried = some .pass ∧ k.loaded.fillLine = 0 ∧ st = .done ∧
              reason = .none →
          s.fill.state ≠ .idle ∨ s.fill.order = [] →
          (jobGoesOn s i → nothingQueued s c →
            t.fill = s.fill ∧ circEnded s t c i k (s.circ c).entries st reason) ∧
          (∀ m next, nextQueued s c m next → m ≠ i → s.jobRunning = true →
            s.conn next.loaded.drop = false →
            t.fill = s.fill ∧ circTook s t c m next ∧
            t.comp? i =
              some { k with
                entries := (s.circ c).entries, state := st, owner := none, reason := reason } ∧
            recordAdded i
              { k with
                entries := (s.circ c).entries, state := st, owner := none, reason := reason } s t) ∧
          (k.state = .ending → k.fillEntry = none → s.jobs.staged = none →
            (∀ m q, m ≠ i → s.comp? m = some q → q.state.terminal = true) →
            jobEndedWith s t i st none)) ∧
        ((s.circ c).carried = some .pass → k.loaded.fillLine ≠ 0 → nothingQueued s c →
          (s.fill.state ≠ .idle →
            sentToFill s t c i k (s.circ c).entries ∧ t.events = s.events) ∧
          (s.fill.state = .idle → s.fill.order = [] → s.jobRunning = true →
            s.conn k.loaded.drop = false →
            fillTook s t s.fill.trails i { k with entries := (s.circ c).entries } [] ∧
            (∀ m, m ≠ i → t.comp? m = s.comp? m) ∧ (t.circ c).state = .idle ∧
            (t.claim (sideConsumer c)).need = .zero ∧ t.certs = s.certs ∧
            t.events = s.events)))) ∧
  ∀ (s : State) (i : Nat) (k : Comp), s.comp? i = some k → jobGoesOn s i →
    (∀ c : Side,
      ((s.circ c).dropWait = none → exec (.dropWaitExpiry (sideConsumer c)) s = .next s) ∧
      ((s.circ c).dropWait ≠ none → (s.circ c).comp = i → nothingQueued s c →
        ∃ t, exec (.dropWaitExpiry (sideConsumer c)) s = .next t ∧ t.pins = s.pins ∧
          t.fill = s.fill ∧ circEnded s t c i k (s.circ c).entries .failed .noDrop)) ∧
    (s.fill.dropWait = none → exec (.dropWaitExpiry .fill) s = .next s) ∧
    (s.fill.dropWait ≠ none → s.fill.comp = i → s.fill.started = false → s.fill.order = [] →
      ∃ t, exec (.dropWaitExpiry .fill) s = .next t ∧ t.pins = s.pins ∧
        fillLeft s t i k .failed .noDrop)

/-- The fill timers and the skid's stop. SKID_TIMER_EXPIRY, NO_FLOW_EXPIRY and DELIV_L deasserting in
FLOWING fail the fill; FILL_RUN_OUT_EXPIRY ends it by its close kind, a NORMAL close with its outcome on
volume and a trail learned. None acts where its timer is stopped. With a compartment waiting in the FILL_WAIT
order the controller takes the oldest. The fill that ends the last compartment ends the job, PASS only when it
is FILLED and the others pass (R16, R21, R90, R94, R95, R99). What the controller back in IDLE clears is
the model's reading, notes/assumptions/18.md. -/
def Obligations.FillEnds : Prop :=
  (∀ (s : State) (i v : Nat) (k : Comp), s.fill.comp = i → s.comp? i = some k → jobGoesOn s i →
    s.fill.order = [] → s.fill.started = true → v = s.fill.pulses / s.cfg.fillMeter →
    (s.fill.skid = none → exec .skidTimerExpiry s = .next s) ∧
    (s.fill.skid ≠ none →
      ∃ t, exec .skidTimerExpiry s = .next t ∧ t.pins = s.pins ∧
        fillEnded s t i k .failed .noSkid .noSkid v s.fill.trails) ∧
    (s.fill.noFlow = none → exec .noFlowExpiry s = .next s) ∧
    (s.fill.noFlow ≠ none →
      ∃ t, exec .noFlowExpiry s = .next t ∧ t.pins = s.pins ∧
        fillEnded s t i k .failed .noFlow .noFlow v s.fill.trails) ∧
    (∀ l : FillLine, s.deliv l.num = true →
      (s.fill.state = .flowing → s.fill.line = l.num →
        ∃ t, exec (.delivDeasserted l) s = .next t ∧
          t.pins = { s.pins with deliv := setPin s.pins.deliv l.num false } ∧
          fillEnded s t i k .failed .skidStopped .skidStopped v s.fill.trails) ∧
      (¬(s.fill.state = .flowing ∧ s.fill.line = l.num) →
        exec (.delivDeasserted l) s =
          .next { s with pins := { s.pins with deliv := setPin s.pins.deliv l.num false } })) ∧
    (s.fill.runOut = none → exec .fillRunOutExpiry s = .next s) ∧
    (s.fill.runOut ≠ none →
      ∃ t, exec .fillRunOutExpiry s = .next t ∧ t.pins = s.pins ∧
        (s.fill.closeKind = .normal →
          fillEnded s t i k .done .none
            (volumeOutcome s.fill.preset s.cfg.fillTolerance v) s.fill.volumeAtClose
            (s.fill.trails.set s.fill.line
              (min 200 ((3 * s.fill.trailUsed + (v - s.fill.volumeAtClose)) / 4)))) ∧
        (s.fill.closeKind = .high →
          fillEnded s t i k .done .none .highLevel s.fill.volumeAtClose s.fill.trails) ∧
        (s.fill.closeKind = .abort →
          fillEnded s t i k .aborted .host
            (volumeOutcome s.fill.preset s.cfg.fillTolerance v) s.fill.volumeAtClose
            s.fill.trails) ∧
        (s.fill.closeKind = .dropLost →
          fillEnded s t i k .failed .dropLost
            (volumeOutcome s.fill.preset s.cfg.fillTolerance v) s.fill.volumeAtClose
            s.fill.trails))) ∧
  (∀ (s : State) (i v : Nat) (k : Comp), s.fill.comp = i → s.comp? i = some k →
    k.state.terminal = false → (∀ m q, m ≠ i → s.comp? m = some q → q.state.terminal = true) →
    s.jobs.staged = none → s.fill.started = true → v = s.fill.pulses / s.cfg.fillMeter →
    (s.fill.skid ≠ none →
      ∃ t, exec .skidTimerExpiry s = .next t ∧ jobEndedWith s t i .failed (some .noSkid)) ∧
    (s.fill.noFlow ≠ none →
      ∃ t, exec .noFlowExpiry s = .next t ∧ jobEndedWith s t i .failed (some .noFlow)) ∧
    (∀ l : FillLine, s.deliv l.num = true → s.fill.state = .flowing → s.fill.line = l.num →
      ∃ t, exec (.delivDeasserted l) s = .next t ∧
        jobEndedWith s t i .failed (some .skidStopped)) ∧
    ∀ (st : CompState) (outcome : ResultCode), s.fill.runOut ≠ none →
      (s.fill.closeKind = .normal ∧ st = .done ∧
          outcome = volumeOutcome s.fill.preset s.cfg.fillTolerance v ∨
        s.fill.closeKind = .high ∧ st = .done ∧ outcome = .highLevel ∨
        s.fill.closeKind = .abort ∧ st = .aborted ∧
          outcome = volumeOutcome s.fill.preset s.cfg.fillTolerance v ∨
        s.fill.closeKind = .dropLost ∧ st = .failed ∧
          outcome = volumeOutcome s.fill.preset s.cfg.fillTolerance v) →
      ∃ t, exec .fillRunOutExpiry s = .next t ∧ jobEndedWith s t i st (some outcome)) ∧
  ∀ (s : State) (m : Nat) (rest : List Nat) (k : Comp), s.jobRunning = true →
    s.fill.order = m :: rest → m ≠ s.fill.comp → s.comp? m = some k → k.state = .fillWait →
    s.conn k.loaded.drop = false →
    (s.fill.skid ≠ none →
      ∃ t, exec .skidTimerExpiry s = .next t ∧ fillTook s t s.fill.trails m k rest) ∧
    (s.fill.noFlow ≠ none →
      ∃ t, exec .noFlowExpiry s = .next t ∧ fillTook s t s.fill.trails m k rest) ∧
    (s.fill.runOut ≠ none → s.fill.closeKind ≠ .normal →
      ∃ t, exec .fillRunOutExpiry s = .next t ∧ fillTook s t s.fill.trails m k rest)

/-! ### The yard's draws -/

/-- ANNOUNCEMENT_TICK counts the own tick, restarts the announcement timer at T_a and hands an ANNOUNCE of 19
bytes, each field as the state stands, dropped behind a pending LEAVE. With DERATE asserted in LISTEN or LIVE
a shedding evaluation comes before the intent and sheds one wash claim at most. Where none is shed: outside
LIVE, with an intent already there, or with every waiting claim oversize no claim changes; in LIVE with no
intent the oldest waiting claim that is not oversize takes the next intent, A before B before FILL on equal
ages, an older oversize one being passed over (R107, R109, R119 to R123, R127, R153). -/
def Obligations.TickAnnounces : Prop :=
  ∀ s : State,
    (s.adm.announce = none → exec .announcementTick s = .next s) ∧
    (s.adm.announce ≠ none →
      ∃ t, exec .announcementTick s = .next t ∧ t.adm.tick = s.adm.tick + 1 ∧
        t.adm.announce = some s.cfg.period ∧ t.adm.listen = s.adm.listen ∧
        (∀ q, t.adm.eff q = s.adm.eff q) ∧
        (∀ content a b x, s.line.pendingFrame = .leave content a b x → t.line = s.line) ∧
        ((∀ content a b x, s.line.pendingFrame ≠ .leave content a b x) →
          ∃ content, t.line =
              { s.line with pendingFrame := .announce content t.intentTag false } ∧
            content.length = 19 ∧ byteAt content 0 = 16 + (s.ownAddr.getD 0).toNat ∧
            byteAt content 1 = s.bay.code + (if s.bay = .safe then 16 else 0) +
              (if s.pins.derate then 64 else 0) ∧
            byteAt content 2 = s.cfg.capSet % 256 ∧
            (∀ q o, q = .heat ∧ o = 3 ∨ q = .flow ∧ o = 5 ∨ q = .drain ∧ o = 7 →
              wordAt content o =
                ((t.claim .a).committed.amount q + (t.claim .b).committed.amount q +
                  (t.claim .fill).committed.amount q) % 65536) ∧
            (∀ l, l < 4 → ((content.getD 9 0).getLsbD l = true ↔
              ∃ k, (t.claim k).committed.line = l + 1)) ∧
            (∀ l, 4 ≤ l → (content.getD 9 0).getLsbD l = false) ∧
            ((∀ k, (t.claim k).state ≠ .intent) → ∀ o, 10 ≤ o → o ≤ 17 → byteAt content o = 0) ∧
            (∀ k, (t.claim k).state = .intent → (∀ m, m ≠ k → (t.claim m).state ≠ .intent) →
              wordAt content 10 = ((t.claim k).need.heat - (t.claim k).committed.heat) % 65536 ∧
              wordAt content 12 = ((t.claim k).need.flow - (t.claim k).committed.flow) % 65536 ∧
              wordAt content 14 = ((t.claim k).need.drain - (t.claim k).committed.drain) % 65536 ∧
              byteAt content 16 = (if (t.claim k).need.line = (t.claim k).committed.line then 0
                else (t.claim k).need.line) % 256 ∧
              byteAt content 17 = tickAge t.adm.tick (t.claim k).waitStart) ∧
            byteAt content 18 = t.adm.newestAge) ∧
        ((∀ k, (t.claim k).committed = .zero) → t.adm.newestAge = 255) ∧
        (∀ k tick, (t.claim k).committed ≠ .zero → (t.claim k).commitTick = some tick →
          t.adm.newestAge ≤ tickAge t.adm.tick tick ∧
          ∃ m last, (t.claim m).committed ≠ .zero ∧ (t.claim m).commitTick = some last ∧
            t.adm.newestAge = tickAge t.adm.tick last) ∧
        t.bay = s.bay ∧ t.ms = s.ms ∧ t.pins = s.pins ∧ t.config = s.config ∧ t.jobs = s.jobs ∧
        t.fill = s.fill ∧ t.peers = s.peers ∧ t.certs = s.certs ∧ t.safety = s.safety ∧
        t.port = s.port ∧ t.sticky = s.sticky ∧
        ∀ age, age = ({ s.adm with tick := s.adm.tick + 1 } : Admission).newestAge →
          (∀ c q, s.pins.derate = true → notStopped s →
            shedsNow s s.adm.eff age (s.adm.tick + 1) c q →
            (t.claim (sideConsumer c)).committed = .zero ∧
            (t.claim (sideConsumer c)).shed = true ∧
            (t.claim (sideConsumer c)).commitTick = none ∧
            (t.claim (sideConsumer c)).waitStart = s.adm.tick + 1 ∧
            (t.claim (sideConsumer c)).need = (s.claim (sideConsumer c)).need ∧
            ((t.claim (sideConsumer c)).state = .waiting ∨
              (t.claim (sideConsumer c)).state = .intent) ∧
            (∀ m, m ≠ sideConsumer c → (t.claim m).committed = (s.claim m).committed ∧
              (t.claim m).need = (s.claim m).need ∧ (t.claim m).shed = (s.claim m).shed) ∧
            ∃ e, shedTold s t c q e ∧
              (s.events.records.length < 32 → t.events.records = s.events.records ++ [e])) ∧
          (s.pins.derate = false ∨ ¬notStopped s ∨ noShed s s.adm.eff age →
            t.circA = s.circA ∧ t.circB = s.circB ∧ t.events = s.events ∧
            (s.bay ≠ .live ∨ (∃ m, (s.claim m).state = .intent) ∨
                (∀ m, (s.claim m).state = .waiting → oversized s m) →
              t.adm = { s.adm with tick := s.adm.tick + 1, announce := some s.cfg.period }) ∧
            ∀ k, s.bay = .live → (∀ m, (s.claim m).state ≠ .intent) →
              (s.claim k).state = .waiting → ¬oversized s k →
              (∀ m, m ≠ k → (s.claim m).state = .waiting →
                oversized s m ∨
                tickAge (s.adm.tick + 1) (s.claim m).waitStart <
                  tickAge (s.adm.tick + 1) (s.claim k).waitStart ∨
                (tickAge (s.adm.tick + 1) (s.claim m).waitStart =
                    tickAge (s.adm.tick + 1) (s.claim k).waitStart ∧
                  (k, m) ∈ [(Consumer.a, Consumer.b), (.a, .fill), (.b, .fill)])) →
              t.claim k = { s.claim k with state := .intent } ∧
              (∀ m, m ≠ k → t.claim m = s.claim m) ∧
              t.adm.intentCount = s.adm.intentCount + 1 ∧ t.adm.announcedAge = none ∧
              t.intentTag = some ⟨s.adm.intentCount + 1,
                tickAge (s.adm.tick + 1) (s.claim k).waitStart⟩))

/-- SETTLE_WINDOW_EXPIRY: on a DEGRADED line the intent is held with the window stopped; else the claim in
INTENT commits whole when every sum of R114 and its line fit, and its consumer goes on, a paused step with its
counts by the hold limit, or returns to WAITING. A peer's intent ranks ahead when it is older than the own
announced age, or as old from a lower address; a line fits when no peer and no own claim holds it and no peer
intent ranked ahead names it (R48, R112 to R117). -/
def Obligations.SettleDecides : Prop :=
  ∀ s : State,
    (s.adm.settle = none → exec .settleWindowExpiry s = .next s) ∧
    (s.adm.settle ≠ none → s.line.degraded = true →
      exec .settleWindowExpiry s = .next { s with adm := { s.adm with settle := none } }) ∧
    (∀ p own, s.adm.announcedAge = some own →
      (s.ranksAhead p = true ↔
        (0 < p.intentHeat ∨ 0 < p.intentFlow ∨ 0 < p.intentDrain ∨ 0 < p.intentLine) ∧
          (own < p.intentAge ∨
            p.intentAge = own ∧ p.address.toNat < (s.ownAddr.getD 0).toNat))) ∧
    (∀ q, s.rankedIntents q = ((s.peers.filter fun p => s.ranksAhead p).map fun p =>
      match q with
        | .heat => p.intentHeat
        | .flow => p.intentFlow
        | .drain => p.intentDrain).sum) ∧
    s.lineFits 0 = true ∧
    (∀ l, l < 4 →
      (s.lineFits (l + 1) = true ↔
        (∀ p ∈ s.peers, p.heldLines.getLsbD l = false ∧
          ¬(s.ranksAhead p = true ∧ p.intentLine = l + 1)) ∧
        ∀ k, (s.claim k).committed.line ≠ l + 1)) ∧
    ∀ k line, s.adm.settle ≠ none → s.line.degraded = false → s.adm.intentClaim = some k →
      line = (if (s.claim k).need.line = (s.claim k).committed.line then 0
        else (s.claim k).need.line) →
      ((∃ q, s.adm.eff q <
          peersCommitted s.peers q + s.rankedIntents q + s.adm.ownCommitted q +
            ((s.claim k).need.amount q - (s.claim k).committed.amount q)) ∨
        s.lineFits line = false →
        exec .settleWindowExpiry s =
          .next ({ s with adm := { s.adm with settle := none, announcedAge := none } }.setClaim k
            { s.claim k with state := .waiting })) ∧
      ((∀ q, peersCommitted s.peers q + s.rankedIntents q + s.adm.ownCommitted q +
            ((s.claim k).need.amount q - (s.claim k).committed.amount q) ≤ s.adm.eff q) →
        s.lineFits line = true →
        ∃ t, exec .settleWindowExpiry s = .next t ∧
          t.claim k =
            { s.claim k with
              committed := (s.claim k).need
              state := .satisfied
              shed := false
              commitTick := some s.adm.tick } ∧
          claimsFrame k s t ∧ t.adm.settle = none ∧
          (∀ q, peersCommitted s.peers q + t.adm.ownCommitted q ≤ s.adm.eff q) ∧
          (∀ c st, k = sideConsumer c →
            (s.circ c).state = .admitting ∨ (s.circ c).state = .paused → s.stepOf c = some st →
            runEntered s t c st ∧ (∀ d, d ≠ c → t.circ d = s.circ d) ∧ t.fill = s.fill) ∧
          (k = .fill → s.fill.state = .admitting → s.deliv s.fill.line = false →
            s.fill.skid = none →
            t.fill =
              { s.fill with
                state := .awaitSkid
                started := true
                skid := some (s.cfg.skidTimeout * 1000) } ∧
            t.circA = s.circA ∧ t.circB = s.circB) ∧
          t.pins = s.pins ∧ t.jobs = s.jobs ∧ t.certs = s.certs ∧ t.events = s.events ∧
          t.sticky = s.sticky ∧ workFrame s t)

/-- LISTEN_TIMER_EXPIRY in LISTEN enters LIVE and changes nothing else. PEER_AGE_STALE marks a PRESENT
entry not heard for more than 3·T_a, and PEER_AGE_GONE removes one not heard for more than 8·T_a, each with
its event, and no other entry changes; a younger entry, such as one just heard, stays as it is (R131,
R138). -/
def Obligations.ListenAndAgesExpire : Prop :=
  ∀ (a : BitVec 4) (s : State),
    (s.adm.listen ≠ none → s.bay = .listen →
      exec .listenTimerExpiry s =
        .next { s with bay := .live, adm := { s.adm with listen := none } }) ∧
    (s.adm.listen = none ∨ s.bay ≠ .listen → exec .listenTimerExpiry s = .next s) ∧
    (s.peer? a = none ∨ ¬inYard s →
      exec (.peerAgeStale a) s = .next s ∧ exec (.peerAgeGone a) s = .next s) ∧
    ∀ p age, s.peer? a = some p → inYard s → age = (s.ms - p.heard).toNat →
      (p.stale = true ∨ age ≤ 3 * s.cfg.period → exec (.peerAgeStale a) s = .next s) ∧
      (p.stale = false → 3 * s.cfg.period < age →
        ∃ ps, exec (.peerAgeStale a) s =
            .next (raise .peerStale a.toNat 0 0 { s with peers := ps }) ∧
          { s with peers := ps }.peer? a = some { p with stale := true } ∧
          ∀ b, b ≠ a → { s with peers := ps }.peer? b = s.peer? b) ∧
      (age ≤ 8 * s.cfg.period → exec (.peerAgeGone a) s = .next s) ∧
      (8 * s.cfg.period < age →
        ∃ ps, exec (.peerAgeGone a) s =
            .next (raise .peerGone a.toNat 0 0 { s with peers := ps }) ∧
          { s with peers := ps }.peer? a = none ∧
          ∀ b, b ≠ a → { s with peers := ps }.peer? b = s.peer? b)

/-! ### Frames received -/

/-- A foreign ANNOUNCE of a station other than 0 and this one gives its address an entry, PRESENT, heard
now, with every field brought within its range and its identifier compared; no other entry changes. The
framer returns to IDLE, the line is not free, and a good outcome enters the window (R134 to R137,
R151, R159). -/
def Obligations.AnnounceStoresPeer : Prop :=
  ∀ (r : StationReport) (s : State),
    (s.bay = .setup ∨ s.line.framer.own = true → exec (.announceReceived r) s = .next s) ∧
    (s.line.framer.own = false → inYard s → r.address ≠ 0 → s.ownAddr ≠ some r.address →
      ∃ t p, exec (.announceReceived r) s = .next t ∧ t.peer? r.address = some p ∧
        (∀ a, a ≠ r.address → t.peer? a = s.peer? a) ∧
        p.stale = false ∧ p.heard = s.ms ∧ p.bayCode = r.bayCode ∧ p.safeFlag = r.safeFlag ∧
        p.leavingFlag = r.leavingFlag ∧ p.derateSeen = r.derateSeen ∧ p.capSet = r.capSet ∧
        p.mismatch = decide (r.capSet.toNat ≠ s.cfg.capSet) ∧
        p.committedHeat = min 4000 r.committedHeat.toNat ∧
        p.committedFlow = min 2000 r.committedFlow.toNat ∧
        p.committedDrain = min 3000 r.committedDrain.toNat ∧
        (∀ l, l < 4 → p.heldLines.getLsbD l = r.heldLines.getLsbD l) ∧
        p.intentHeat = min 4000 r.intentHeat.toNat ∧
        p.intentFlow = min 2000 r.intentFlow.toNat ∧
        p.intentDrain = min 3000 r.intentDrain.toNat ∧
        p.intentLine = (if r.intentLine.toNat ≤ 4 then r.intentLine.toNat else 0) ∧
        p.intentAge = r.intentAge.toNat ∧ p.newestAge = r.newestAge.toNat ∧
        t.line.framer.inFrame = false ∧ t.line.framer.bits = [] ∧ t.line.free = false ∧
        t.line.window = (if s.line.window.length < 32 then s.line.window ++ [false]
          else s.line.window.drop 1 ++ [false]) ∧
        t.line.attempt = s.line.attempt ∧ t.line.pendingFrame = s.line.pendingFrame ∧
        t.line.clock = s.line.clock ∧ t.line.rollCall = s.line.rollCall ∧
        (s.peer? r.address = none → r.capSet.toNat = s.cfg.capSet → s.line.degraded = false →
          s.line.window = [] → s.events.records.length < 32 →
          ∃ e, t.events.records = s.events.records ++ [e] ∧ e.kind = .peerJoined ∧
            e.d0.toNat = r.address.toNat ∧ e.d1 = r.capSet ∧ e.time = s.ms) ∧
        t.adm = s.adm ∧ t.pins = s.pins ∧ t.sticky = s.sticky ∧ lineFrame s t)

/-- A foreign LEAVE removes its sender's entry and a foreign ROLL_CALL gives it the identifier and may
only bring the own tick forward to the first-slot offset; a frame of address 0 changes no entry, and one
of the own address is the cause CLASH (R130, R134, R139, R140). -/
def Obligations.LeaveRollCallAndClash : Prop :=
  ∀ (r : StationReport) (a : BitVec 4) (id : Byte) (s : State), s.line.framer.own = false →
    (inYard s → r.address ≠ 0 → s.ownAddr ≠ some r.address →
      ∃ t, exec (.leaveReceived r) s = .next t ∧ t.peer? r.address = none ∧
        (∀ b, b ≠ r.address → t.peer? b = s.peer? b) ∧ t.line.framer.inFrame = false ∧
        t.line.free = false ∧ t.adm = s.adm ∧ t.pins = s.pins ∧ t.sticky = s.sticky ∧
        lineFrame s t) ∧
    (inYard s → a ≠ 0 → s.ownAddr ≠ some a →
      ∃ t, exec (.rollCallReceived a id) s = .next t ∧
        t.adm =
          { s.adm with
            announce := s.adm.announce.map fun left =>
              min left ((s.ownAddr.getD 0).toNat * s.cfg.period / 16) } ∧
        (∀ p, s.peer? a = some p →
          ∃ p', t.peer? a = some p' ∧ p'.capSet = id ∧
            p'.mismatch = decide (id.toNat ≠ s.cfg.capSet) ∧ p'.stale = p.stale ∧
            p'.heard = p.heard ∧ p'.committedHeat = p.committedHeat ∧
            p'.intentAge = p.intentAge) ∧
        (s.peer? a = none → t.peers = s.peers) ∧ (∀ b, b ≠ a → t.peer? b = s.peer? b) ∧
        t.line.framer.inFrame = false ∧ t.line.free = false ∧ t.pins = s.pins ∧
        t.sticky = s.sticky ∧ lineFrame s t) ∧
    (inYard s → ∀ i, i = .rollCallReceived 0 id ∨
        (r.address = 0 ∧ (i = .announceReceived r ∨ i = .leaveReceived r)) →
      ∃ t, exec i s = .next t ∧ t.peers = s.peers ∧ t.adm = s.adm ∧ t.pins = s.pins ∧
        t.line.framer.inFrame = false ∧ t.sticky = s.sticky ∧ lineFrame s t) ∧
    (∀ i, s.ownAddr = some a → a ≠ 0 →
      (i = .rollCallReceived a id ∨
        (r.address = a ∧ (i = .announceReceived r ∨ i = .leaveReceived r))) →
      (notStopped s →
        ∃ t n, exec i s = .next t ∧ t.bay = .safe ∧ t.safety.first = some .clash ∧
          t.safety.causes = ⟨false, false, false, true⟩ ∧ t.safety.snapshot = some n ∧
          n.cause = .clash ∧ n.left = s.bay ∧ t.peers = s.peers ∧ t.jobs = s.jobs ∧
          outputsOff t) ∧
      (s.bay = .safe →
        ∃ t, exec i s = .next t ∧ t.safety.causes = { s.safety.causes with clash := true } ∧
          t.safety.first = s.safety.first ∧ t.safety.snapshot = s.safety.snapshot ∧
          t.peers = s.peers ∧ t.adm = s.adm ∧ t.jobs = s.jobs ∧ t.circA = s.circA ∧
          t.circB = s.circB ∧ t.fill = s.fill))

/-! ### The yard line -/

/-- ATTEMPT_START takes the LEAVE, else the ROLL_CALL, else the ANNOUNCE, at the beginning of a cell, when
something is pending, no attempt runs, the hold is clear and the line is free there; else it has no effect. At
the first sample of a cell, begun by an edge too, the attempt begins with that cell; else with the next one.
On an idle recessive line the samples before it move the sample clock and the count of 1s alone, and a free
line stays free; the first cell's beginning is the next sample (R153, R154). That the row lets the samples up
to that cell pass is the model's choice, notes/assumptions/33.md. -/
def Obligations.AttemptTakesContent : Prop :=
  ∀ (s u : State) (n : Nat), u = beforeCell s → n = (if s.line.clock.sample = 0 then 1 else 0) →
    (s.line.clock.sample = 0 → u = s) ∧
    (s.pins.yls = true → s.line.framer.inFrame = false → s.line.attempt = none →
      u =
        { s with
          line :=
            { s.line with
              clock := u.line.clock
              framer := { s.line.framer with ones := u.line.framer.ones }
              free := u.line.free
              quietOnes := u.line.quietOnes } } ∧
      (s.line.free = true → u.line.free = true) ∧
      (s.bay ≠ .setup → s.line.clock.sample ≠ 0 → 16 ≤ u.line.clock.nextSample)) ∧
    (s.bay = .setup ∨ u.bay = .setup ∨ u.line.attempt ≠ none ∨ u.line.hold = true ∨
        u.line.free = false ∨ (u.line.pendingFrame = .empty ∧ u.line.rollCall = none) →
      exec .attemptStart s = .next s) ∧
    (s.bay ≠ .setup → u.bay ≠ .setup → u.line.attempt = none → u.line.hold = false →
      u.line.free = true →
      (∀ c a b x, u.line.pendingFrame = .leave c a b x →
        exec .attemptStart s =
          .next { u with
            line :=
              { u.line with
                attempt := some ⟨.leave, c, n⟩
                pendingFrame := .leave c a b true } }) ∧
      (∀ r, (∀ c a b x, u.line.pendingFrame ≠ .leave c a b x) → u.line.rollCall = some r →
        exec .attemptStart s =
          .next { u with
            line :=
              { u.line with
                attempt := some ⟨.rollCall, r.content, n⟩
                rollCall := some ⟨r.content, true⟩ } }) ∧
      (∀ c i x, u.line.pendingFrame = .announce c i x → u.line.rollCall = none →
        exec .attemptStart s =
          .next { u with
            line :=
              { u.line with
                attempt := some ⟨.announce i, c, n⟩
                pendingFrame := .announce c i true } }))

/-- The ends of an attempt. A 1 of the opening flag or the arbitration byte read back 0 loses the
arbitration: the content stays pending and no outcome is entered. Any other mismatch is a bit error: the
content stays, the sticky flag is set, a bad outcome is entered. FRAME_SENT clears the content sent, and
an ANNOUNCE that carried the present intent starts the settle window (R110, R111, R155 to R157). That either
row has no effect at a bit of the other's is the model's choice, notes/assumptions/29.md. -/
def Obligations.AttemptEnds : Prop :=
  ∀ (k : Nat) (s : State),
    (s.line.attempt = none →
      exec (.lostArbitration k) s = .next s ∧ exec (.bitError k) s = .next s ∧
      exec .frameSent s = .next s) ∧
    ∀ a : Attempt, s.line.attempt = some a →
      (k < arbitrationBits a.content → (lineBits a.content).getD k false = true →
        exec (.lostArbitration k) s =
          .next { s with
            line :=
              { s.line with
                attempt := none
                lastOutcome := .lost
                pendingFrame := s.line.pendingFrame.released
                rollCall := s.line.rollCall.map fun r => { r with taken := false }
                framer := { s.line.framer with own := false, afterBitError := false } } } ∧
        exec (.bitError k) s = .next s) ∧
      (k < (lineBits a.content).length →
        arbitrationBits a.content ≤ k ∨ (lineBits a.content).getD k false = false →
        exec (.lostArbitration k) s = .next s ∧
        ∃ t, exec (.bitError k) s = .next t ∧ t.line.attempt = none ∧
          t.line.lastOutcome = .bitError ∧ t.line.pendingFrame = s.line.pendingFrame.released ∧
          t.line.window = (if s.line.window.length < 32 then s.line.window ++ [true]
            else s.line.window.drop 1 ++ [true]) ∧
          t.line.framer.own = false ∧ t.line.clock = s.line.clock ∧ t.line.free = s.line.free ∧
          t.line.hold = s.line.hold ∧ t.sticky = { s.sticky with badFrame := true } ∧
          t.adm = s.adm ∧ t.peers = s.peers ∧ t.pins = s.pins ∧ lineFrame s t) ∧
      (a.frame = .rollCall →
        exec .frameSent s =
          .next { s with
            line :=
              { s.line with
                attempt := none
                lastOutcome := .sent
                framer := { s.line.framer.idle with ones := 0 }
                free := false
                quietOnes := 0
                rollCall := match s.line.rollCall with
                  | some r => if r.taken then none else some r
                  | none => none } }) ∧
      (∀ c x, a.frame = .announce none → s.line.pendingFrame = .announce c none x →
        exec .frameSent s =
          .next { s with
            line :=
              { s.line with
                attempt := none
                lastOutcome := .sent
                framer := { s.line.framer.idle with ones := 0 }
                free := false
                quietOnes := 0
                pendingFrame := if x then .empty else .announce c none false } }) ∧
      (∀ tag claim, a.frame = .announce (some tag) → s.adm.intentClaim = some claim →
        s.adm.settle = none →
        ∃ t, exec .frameSent s = .next t ∧ t.line.attempt = none ∧ t.line.lastOutcome = .sent ∧
          t.line.free = false ∧ t.line.window = s.line.window ∧
          (tag.number = s.adm.intentCount →
            t.adm =
              { s.adm with announcedAge := some tag.age, settle := some (2 * s.cfg.period) }) ∧
          (tag.number ≠ s.adm.intentCount → t.adm = s.adm) ∧ t.peers = s.peers ∧
          t.pins = s.pins ∧ t.sticky = s.sticky ∧ lineFrame s t) ∧
      (∀ c, a.frame = .leave → s.line.pendingFrame = .leave c true false true →
        s.safety.silence = .leavePending → s.pins.pfw = true →
        ∃ t, exec .frameSent s = .next t ∧ t.line.pendingFrame = .empty ∧ t.line.hold = true ∧
          t.safety = { s.safety with silence := .silent } ∧ t.bay = s.bay ∧ t.adm = s.adm ∧
          t.jobs = s.jobs ∧ t.peers = s.peers)

/-- FRAME_DISCARD of the foreign frame in reception: by the seventh 1 of an abort, by a check at its closing
flag, as LONG past 208 bits, or at a phase error as SYNC. The framer returns to IDLE with the reason kept, the
sticky flag is set and a bad outcome enters the window; at 8 bad outcomes the line is DEGRADED, at 2 GOOD
again. With no foreign frame in reception it has no effect. The checks at a closing flag, in order: SHORT
under 32 bits, ALIGN off a byte, CRC, then FORMAT for a class that is not of this length (R146, R150, R151,
R158 to R160). That LONG counts the bits known to be the frame's is the model's choice,
notes/assumptions/32.md. -/
def Obligations.DiscardEntersBadOutcome : Prop :=
  (∀ (e : FrameEnd) (s : State),
    s.bay = .setup ∨ s.line.framer.inFrame = false ∨ s.line.framer.own = true →
    exec (.frameDiscard e) s = .next s) ∧
  (∀ (e : FrameEnd) (reason : DiscardReason) (p : Pins) (f : Framer) (s : State),
    s.bay ≠ .setup → f = s.line.framer → f.inFrame = true → f.own = false →
    f.afterBitError = false → s.line.attempt = none → s.line.clock.sample = 7 →
    s.line.clock.lengthen = false → s.line.clock.shorten = false →
    (e = .unchanged ∧ p = s.pins ∧
        (f.ones = 6 ∧ s.pins.yls = true ∧ reason = .aborted ∨
          f.ones = 6 ∧ s.pins.yls = false ∧ checkFrame f.bits = some reason ∨
          f.ones ≠ 6 ∧ s.pins.yls = false ∧ reason = .long ∧
            208 < f.bits.length + (if f.held then 1 else 0) + f.ones) ∨
      e = .phaseError 1 ∧ p = { s.pins with yls := !s.pins.yls } ∧ reason = .sync ∧
        s.line.clock.locked = true ∧ s.line.phaseShift = false ∧
        16 ≤ s.line.clock.sinceAdjust) →
    ∃ t w n, exec (.frameDiscard e) s = .next t ∧ t.line.window = w ∧
      w = (if s.line.window.length < 32 then s.line.window ++ [true]
        else s.line.window.drop 1 ++ [true]) ∧
      n = w.count true ∧
      t.line.degraded =
        (if s.line.degraded = false ∧ 8 ≤ n then true
          else if s.line.degraded = true ∧ n ≤ 2 then false else s.line.degraded) ∧
      t.line.framer.inFrame = false ∧ t.line.framer.bits = [] ∧
      t.line.framer.lastDiscard = reason ∧ t.line.attempt = none ∧
      t.line.pendingFrame = s.line.pendingFrame ∧ t.line.rollCall = s.line.rollCall ∧
      t.line.clock.sample = 8 ∧ (e ≠ .unchanged → t.line.clock.locked = false) ∧
      t.sticky = { s.sticky with badFrame := true } ∧ t.adm = s.adm ∧ t.peers = s.peers ∧
      t.pins = p ∧ lineFrame s t) ∧
  ∀ bits : List Bool,
    (bits.length < 32 → checkFrame bits = some .short) ∧
    (32 ≤ bits.length → bits.length % 8 ≠ 0 → checkFrame bits = some .align) ∧
    (32 ≤ bits.length → bits.length % 8 = 0 →
      crcBits (bits.take (bits.length - 16)) ≠ bits.drop (bits.length - 16) →
      checkFrame bits = some .crc) ∧
    (32 ≤ bits.length → bits.length % 8 = 0 →
      crcBits (bits.take (bits.length - 16)) = bits.drop (bits.length - 16) →
      ((bits.length = 168 ∧ bits.take 3 = [false, false, false]) ∨
          (bits.length = 32 ∧ bits.take 4 = [false, false, true, false]) →
        checkFrame bits = none) ∧
      (¬((bits.length = 168 ∧ bits.take 3 = [false, false, false]) ∨
          (bits.length = 32 ∧ bits.take 4 = [false, false, true, false])) →
        checkFrame bits = some .format))

/-- The line and the clock. In SETUP no row has an effect but on the pin. FRAME_OPENED is the last 0 of an
opening flag, the frame own in an own attempt, and never comes on a recessive line; LINE_FREE is the eighth 1
with the framer IDLE, and never comes on a dominant line; LINE_BUSY is the first 0; CLOCK_UNLOCKED is the end
of the 32nd cell without an edge. An edge one sample after the last: in LOCKED on time it does nothing; with
phase shift, late by at most 3 it lengthens the cell, early by at most 3 shortens it, else restarts it;
without, late by at most 7 lengthens, early by at most 7 shortens, halfway unlocks; in UNLOCKED it locks and
begins a cell; within 16 samples of an adjusting edge it is ignored (R144 to R147, R150, R152, R158). That a
row of an event lets the samples up to it pass is the model's choice, notes/assumptions/33.md, and so is the
bit an attempt drives after an edge at samples 1 to 8, notes/assumptions/36.md. -/
def Obligations.ClockAndLineFollowEdges : Prop :=
  ∀ s : State,
    (s.bay = .setup →
      exec .frameOpened s = .next s ∧ exec .lineFree s = .next s ∧ exec .lineBusy s = .next s ∧
      exec .clockUnlocked s = .next s ∧
      ∀ n, exec (.ylsEdge n) s = .next { s with pins := { s.pins with yls := !s.pins.yls } }) ∧
    (s.pins.yls = true → exec .frameOpened s = .next s) ∧
    (s.pins.yls = false → exec .lineFree s = .next s) ∧
    (s.bay ≠ .setup → s.line.clock.lengthen = false → s.line.clock.shorten = false →
      (∀ clock, s.line.clock.sample < 8 →
        clock =
          { s.line.clock with
            sample := 8
            sinceAdjust := min (s.line.clock.sinceAdjust + (8 - s.line.clock.sample)) 17 } →
        (s.line.framer.inFrame = false → s.line.framer.armed = true → s.line.framer.ones = 6 →
          s.pins.yls = false →
          (s.line.attempt = none ∨ ∃ a, s.line.attempt = some a ∧ a.cells = 8) →
          exec .frameOpened s =
            .next { s with
              line :=
                { s.line with
                  clock := clock
                  free := false
                  quietOnes := 0
                  framer :=
                    { s.line.framer with
                      inFrame := true
                      ones := 0
                      armed := false
                      held := false
                      bits := []
                      own := s.line.attempt.isSome
                      afterBitError := false } } }) ∧
        (s.line.framer.inFrame = false → s.line.free = false → s.line.quietOnes = 7 →
          s.pins.yls = true → s.line.attempt = none →
          exec .lineFree s =
            .next { s with
              line :=
                { s.line with
                  clock := clock
                  free := true
                  quietOnes := 8
                  framer :=
                    { s.line.framer with ones := min (s.line.framer.ones + 1) 7 } } }) ∧
        (s.line.framer.inFrame = false → s.line.free = true → s.line.framer.ones ≠ 6 →
          s.pins.yls = false → s.line.attempt = none →
          exec .lineBusy s =
            .next { s with
              line :=
                { s.line with
                  clock := clock
                  free := false
                  quietOnes := 0
                  framer :=
                    { s.line.framer with
                      armed := decide (s.line.framer.ones = 7)
                      ones := 0 } } })) ∧
      (s.line.clock.locked = true → s.line.clock.sample = 15 → s.line.clock.quietCells = 31 →
        s.line.clock.edgeInCell = false →
        exec .clockUnlocked s =
          .next { s with
            line :=
              { s.line with
                clock :=
                  ⟨false, 0, 32, false, false, false, min (s.line.clock.sinceAdjust + 1) 17⟩
                attempt := s.line.attempt.map fun a => { a with cells := a.cells + 1 } } }) ∧
      (s.line.clock.locked = true → 16 ≤ s.line.clock.sinceAdjust → s.line.clock.sample = 15 →
        s.line.clock.quietCells < 31 →
        exec (.ylsEdge 1) s =
          .next { s with
            pins := { s.pins with yls := !s.pins.yls }
            line :=
              { s.line with
                clock := ⟨true, 0, 0, true, false, false, 17⟩
                attempt := s.line.attempt.map fun a => { a with cells := a.cells + 1 } } }) ∧
      ∀ m, s.line.clock.sample < 15 → m = s.line.clock.sample + 1 →
        (∀ clock attempt,
          (16 ≤ s.line.clock.sinceAdjust ∧ s.line.clock.locked = true ∧ s.line.phaseShift = true ∧
              (m ≤ 3 ∧ clock = ⟨true, m, 0, true, true, false, 0⟩ ∧
                  attempt = s.line.attempt ∨
                4 ≤ m ∧ m ≤ 12 ∧ clock = ⟨true, 0, 0, true, false, false, 0⟩ ∧
                  attempt = s.line.attempt.map (fun a =>
                    { a with cells := if 9 ≤ m ∨ a.cells = 0 then a.cells + 1 else a.cells }) ∨
                13 ≤ m ∧ clock = ⟨true, m, 0, true, false, true, 0⟩ ∧
                  attempt = s.line.attempt)) ∨
            (16 ≤ s.line.clock.sinceAdjust ∧ s.line.clock.locked = true ∧
              s.line.phaseShift = false ∧ attempt = s.line.attempt ∧
              (m ≤ 7 ∧ clock = ⟨true, m, 0, true, true, false, 0⟩ ∨
                9 ≤ m ∧ clock = ⟨true, m, 0, true, false, true, 0⟩)) ∨
            (16 ≤ s.line.clock.sinceAdjust ∧ s.line.clock.locked = false ∧
              clock = ⟨true, 0, 0, true, false, false, 0⟩ ∧
              attempt = s.line.attempt.map (fun a =>
                { a with cells := if 9 ≤ m ∨ a.cells = 0 then a.cells + 1 else a.cells })) ∨
            (s.line.clock.sinceAdjust < 16 ∧ m ≠ 8 ∧
              clock =
                ⟨s.line.clock.locked, m, 0, true, false, false, s.line.clock.sinceAdjust + 1⟩ ∧
              attempt = s.line.attempt) →
          exec (.ylsEdge 1) s =
            .next { s with
              pins := { s.pins with yls := !s.pins.yls }
              line := { s.line with clock := clock, attempt := attempt } }) ∧
        (16 ≤ s.line.clock.sinceAdjust → s.line.clock.locked = true →
          s.line.phaseShift = false → m = 8 → s.line.framer.inFrame = false →
          s.line.attempt = none →
          ∃ t, exec (.ylsEdge 1) s = .next t ∧ t.pins = { s.pins with yls := !s.pins.yls } ∧
            t.line.clock = ⟨false, 8, 0, true, false, false, 17⟩ ∧ t.adm = s.adm ∧
            t.peers = s.peers ∧ t.sticky = s.sticky ∧ t.events = s.events ∧ lineFrame s t))

/-- A frame survives the line. The bits sent hold no run of six 1s. The receive framer, fed the bits as they
stand on the line, opens a frame at the flag after seven 1s, and closes it at the next flag with exactly the
bits sent, the inserted zeros removed, and no other event; those bits pass the checks for a content of its
class's length and give the content back; and no two contents share their bits (R148 to R151). -/
def Obligations.FramesSurviveTheLine : Prop :=
  (∀ (bits before after : List Bool),
    insertZeros 0 bits ≠ before ++ List.replicate 6 true ++ after) ∧
  (∀ (f : Framer) (own : Bool), f.inFrame = false → f.ones = 7 →
    f.takeAll own flagBits = (f.opened own, List.replicate 7 .nothing ++ [.opened])) ∧
  (∀ (f : Framer) (own : Bool) (bits : List Bool), bits.length ≤ 208 →
    (f.opened own).takeAll own (insertZeros 0 bits ++ flagBits) =
      ({ f.idle with ones := 0 },
        List.replicate ((insertZeros 0 bits).length + 7) .nothing ++ [.closed bits])) ∧
  (∀ (arb : Byte) (rest : List Byte),
    (arb.toNat / 16 ≤ 1 ∧ rest.length = 18) ∨ (arb.toNat / 16 = 2 ∧ rest.length = 1) →
    lineBits (arb :: rest) = flagBits ++ (insertZeros 0 (frameBits (arb :: rest)) ++ flagBits) ∧
    (frameBits (arb :: rest)).length ≤ 184 ∧
    checkFrame (frameBits (arb :: rest)) = none ∧
    contentOf ((frameBits (arb :: rest)).take ((frameBits (arb :: rest)).length - 16)) =
      arb :: rest) ∧
  ∀ a b : List Byte, contentBits a = contentBits b → a = b

/-! ### What every step keeps -/

/-- The books of the bay stay right through every step: the override and the causes follow SAFE, the
event queue, the line health and the trails stay within their bounds, the peer table in order. -/
def Obligations.StepsKeepBooks : Prop :=
  ∀ s t : State, booksRight s → step s = .next t → booksRight t

/-- The own draws never exceed the configured capacities, through every step (R116). -/
def Obligations.StepsKeepDraws : Prop :=
  ∀ s t : State, drawsRight s → step s = .next t → drawsRight t

/-- No valve opens without its grant, through every step: a circuit in RUN has its claim granted, in
LISTEN or LIVE, and a fill in FLOWING holds its line with the skid delivering (R34, R86, R118). -/
def Obligations.StepsKeepValves : Prop :=
  ∀ s t : State, valvesGuarded s → step s = .next t → valvesGuarded t

/-- The state after power-on reset meets what every step keeps. -/
def Obligations.ResetMeetsInvariants : Prop :=
  booksRight .reset ∧ drawsRight .reset ∧ valvesGuarded .reset

/-- What every step keeps guards the valves: a supply valve is open only with its claim granted and a fill
valve only with its line held, in LISTEN or LIVE with no override; SAFE, SETUP and RESETTING have every
output de-energised. And each output is driven where its rule drives it, with no override and RESETN
deasserted: the supply valve in RUN of a step that is no DRAIN, the medium selector at its medium's code, the
return pump in RUN and RUN_OUT, the fill valve in FLOWING, DEMAND of the served line in AWAIT_SKID and FLOWING;
the drop selectors always; YLD at the bit of the attempt's cell (R14, R34, R86, R154, R176, R198). -/
def Obligations.ValvesOpenOnlyGranted : Prop :=
  (∀ s : State, booksRight s → valvesGuarded s →
    (∀ c, s.supplyOpen c = true →
      (s.claim (sideConsumer c)).granted = true ∧ notStopped s ∧ s.safety.override = false) ∧
    (s.fillValveOpen = true →
      s.adm.claimFill.committed.line = s.fill.line ∧ s.deliv s.fill.line = true ∧
      s.demand s.fill.line = true ∧ notStopped s ∧ s.safety.override = false) ∧
    (s.bay = .safe ∨ s.bay = .setup ∨ s.bay = .resetting → outputsOff s)) ∧
  ∀ s : State,
    (s.pins.resetn = false → s.safety.override = false →
      (∀ c,
        (s.supplyOpen c = true ↔
          (s.circ c).state = .running ∧ ∃ st, s.stepOf c = some st ∧ st.kind ≠ .drain) ∧
        (s.pumpOn c = true ↔ (s.circ c).state = .running ∨ (s.circ c).state = .runOut) ∧
        (s.supplyOpen c = false → s.mediumPin c = 0) ∧
        (∀ st code, (s.circ c).state = .running → s.stepOf c = some st → st.kind ≠ .drain →
          (st.medium, code) ∈ [(Medium.water, 0), (.hotWater, 1), (.detergent, 2), (.acid, 3),
            (.sanitizer, 4)] →
          s.mediumPin c = code)) ∧
      (s.fillValveOpen = true ↔ s.fill.state = .flowing) ∧
      (∀ line, s.demand line = true ↔
        (s.fill.state = .awaitSkid ∨ s.fill.state = .flowing) ∧ s.fill.line = line)) ∧
    (∀ c, s.drainClosedPin c = false) ∧
    (∀ d, s.circA.dropSel = d → s.dropPin .a = d - 1) ∧
    (∀ d, s.circB.dropSel = d → s.dropPin .b = d - 5) ∧
    (∀ d, s.fill.dropSel = d → s.fillDropPin = d - 1) ∧
    (s.pins.resetn = false →
      (s.line.attempt = none → s.yld = true) ∧
      (∀ a, s.line.attempt = some a → a.cells = 0 → s.yld = true) ∧
      ∀ (a : Attempt) (n : Nat) (bit : Bool), s.line.attempt = some a → a.cells = n + 1 →
        (lineBits a.content)[n]? = some bit → s.yld = bit)
end

