-- ==== Sys2Proof/Laws/State.lean ====
section
/-!
SUPPORT. What each update of the state leaves alone, one lemma a field: the circuits and claims written
by name, compartments changed, events raised, the port answered, the own frames handed.
-/

namespace Sys2Proof.Machine

/-! ### Circuits -/

@[simp] theorem setCirc_circ (s : State) (c : Side) (x : Circuit) : (s.setCirc c x).circ c = x := by
  cases c <;> rfl
theorem setCirc_circ_other (s : State) {c d : Side} (x : Circuit) (h : d ≠ c) :
    (s.setCirc c x).circ d = s.circ d := by
  cases c <;> cases d <;> first | rfl | exact absurd rfl h
@[simp] theorem setCirc_bay (s : State) (c : Side) (x : Circuit) : (s.setCirc c x).bay = s.bay := by
  cases c <;> rfl
@[simp] theorem setCirc_ms (s : State) (c : Side) (x : Circuit) : (s.setCirc c x).ms = s.ms := by
  cases c <;> rfl
@[simp] theorem setCirc_ownAddr (s : State) (c : Side) (x : Circuit) :
    (s.setCirc c x).ownAddr = s.ownAddr := by cases c <;> rfl
@[simp] theorem setCirc_sticky (s : State) (c : Side) (x : Circuit) :
    (s.setCirc c x).sticky = s.sticky := by cases c <;> rfl
@[simp] theorem setCirc_config (s : State) (c : Side) (x : Circuit) :
    (s.setCirc c x).config = s.config := by cases c <;> rfl
@[simp] theorem setCirc_store (s : State) (c : Side) (x : Circuit) :
    (s.setCirc c x).store = s.store := by cases c <;> rfl
@[simp] theorem setCirc_pins (s : State) (c : Side) (x : Circuit) :
    (s.setCirc c x).pins = s.pins := by cases c <;> rfl
@[simp] theorem setCirc_frontEnd (s : State) (c : Side) (x : Circuit) :
    (s.setCirc c x).frontEnd = s.frontEnd := by cases c <;> rfl
@[simp] theorem setCirc_jobs (s : State) (c : Side) (x : Circuit) :
    (s.setCirc c x).jobs = s.jobs := by cases c <;> rfl
@[simp] theorem setCirc_fill (s : State) (c : Side) (x : Circuit) :
    (s.setCirc c x).fill = s.fill := by cases c <;> rfl
@[simp] theorem setCirc_adm (s : State) (c : Side) (x : Circuit) :
    (s.setCirc c x).adm = s.adm := by cases c <;> rfl
@[simp] theorem setCirc_peers (s : State) (c : Side) (x : Circuit) :
    (s.setCirc c x).peers = s.peers := by cases c <;> rfl
@[simp] theorem setCirc_line (s : State) (c : Side) (x : Circuit) :
    (s.setCirc c x).line = s.line := by cases c <;> rfl
@[simp] theorem setCirc_certs (s : State) (c : Side) (x : Circuit) :
    (s.setCirc c x).certs = s.certs := by cases c <;> rfl
@[simp] theorem setCirc_safety (s : State) (c : Side) (x : Circuit) :
    (s.setCirc c x).safety = s.safety := by cases c <;> rfl
@[simp] theorem setCirc_leaveTimer (s : State) (c : Side) (x : Circuit) :
    (s.setCirc c x).leaveTimer = s.leaveTimer := by cases c <;> rfl
@[simp] theorem setCirc_events (s : State) (c : Side) (x : Circuit) :
    (s.setCirc c x).events = s.events := by cases c <;> rfl
@[simp] theorem setCirc_port (s : State) (c : Side) (x : Circuit) :
    (s.setCirc c x).port = s.port := by cases c <;> rfl
@[simp] theorem setCirc_tie (s : State) (c : Side) (x : Circuit) : (s.setCirc c x).tie = s.tie := by
  cases c <;> rfl
@[simp] theorem setCirc_drawn (s : State) (c : Side) (x : Circuit) :
    (s.setCirc c x).drawn = s.drawn := by cases c <;> rfl
@[simp] theorem setCirc_pending (s : State) (c : Side) (x : Circuit) :
    (s.setCirc c x).pending = s.pending := by cases c <;> rfl
@[simp] theorem setCirc_claim (s : State) (c : Side) (x : Circuit) (k : Consumer) :
    (s.setCirc c x).claim k = s.claim k := by cases c <;> cases k <;> rfl
@[simp] theorem setCirc_cfg (s : State) (c : Side) (x : Circuit) : (s.setCirc c x).cfg = s.cfg := by
  cases c <;> rfl
@[simp] theorem setCirc_comp? (s : State) (c : Side) (x : Circuit) (i : Nat) :
    (s.setCirc c x).comp? i = s.comp? i := by cases c <;> rfl
@[simp] theorem setCirc_comps (s : State) (c : Side) (x : Circuit) :
    (s.setCirc c x).comps = s.comps := by cases c <;> rfl
@[simp] theorem setCirc_recipeOf (s : State) (c : Side) (x : Circuit) (i : Nat) :
    (s.setCirc c x).recipeOf i = s.recipeOf i := by cases c <;> rfl
@[simp] theorem modCirc_circ (s : State) (c : Side) (f : Circuit → Circuit) :
    (s.modCirc c f).circ c = f (s.circ c) := setCirc_circ s c _

/-! ### Claims -/

@[simp] theorem setClaim_claim (s : State) (k : Consumer) (x : Claim) : (s.setClaim k x).claim k = x := by
  cases k <;> rfl
theorem setClaim_claim_other (s : State) {k m : Consumer} (x : Claim) (h : m ≠ k) :
    (s.setClaim k x).claim m = s.claim m := by
  cases k <;> cases m <;> first | rfl | exact absurd rfl h
@[simp] theorem setClaim_bay (s : State) (k : Consumer) (x : Claim) : (s.setClaim k x).bay = s.bay := by
  cases k <;> rfl
@[simp] theorem setClaim_ms (s : State) (k : Consumer) (x : Claim) : (s.setClaim k x).ms = s.ms := by
  cases k <;> rfl
@[simp] theorem setClaim_config (s : State) (k : Consumer) (x : Claim) :
    (s.setClaim k x).config = s.config := by cases k <;> rfl
@[simp] theorem setClaim_store (s : State) (k : Consumer) (x : Claim) :
    (s.setClaim k x).store = s.store := by cases k <;> rfl
@[simp] theorem setClaim_pins (s : State) (k : Consumer) (x : Claim) :
    (s.setClaim k x).pins = s.pins := by cases k <;> rfl
@[simp] theorem setClaim_jobs (s : State) (k : Consumer) (x : Claim) :
    (s.setClaim k x).jobs = s.jobs := by cases k <;> rfl
@[simp] theorem setClaim_circ (s : State) (k : Consumer) (x : Claim) (c : Side) :
    (s.setClaim k x).circ c = s.circ c := by cases k <;> cases c <;> rfl
@[simp] theorem setClaim_fill (s : State) (k : Consumer) (x : Claim) :
    (s.setClaim k x).fill = s.fill := by cases k <;> rfl
@[simp] theorem setClaim_peers (s : State) (k : Consumer) (x : Claim) :
    (s.setClaim k x).peers = s.peers := by cases k <;> rfl
@[simp] theorem setClaim_line (s : State) (k : Consumer) (x : Claim) :
    (s.setClaim k x).line = s.line := by cases k <;> rfl
@[simp] theorem setClaim_certs (s : State) (k : Consumer) (x : Claim) :
    (s.setClaim k x).certs = s.certs := by cases k <;> rfl
@[simp] theorem setClaim_safety (s : State) (k : Consumer) (x : Claim) :
    (s.setClaim k x).safety = s.safety := by cases k <;> rfl
@[simp] theorem setClaim_events (s : State) (k : Consumer) (x : Claim) :
    (s.setClaim k x).events = s.events := by cases k <;> rfl
@[simp] theorem setClaim_tick (s : State) (k : Consumer) (x : Claim) :
    (s.setClaim k x).adm.tick = s.adm.tick := by cases k <;> rfl
@[simp] theorem setClaim_settle (s : State) (k : Consumer) (x : Claim) :
    (s.setClaim k x).adm.settle = s.adm.settle := by cases k <;> rfl
@[simp] theorem setClaim_eff (s : State) (k : Consumer) (x : Claim) (q : Quantity) :
    (s.setClaim k x).adm.eff q = s.adm.eff q := by cases k <;> cases q <;> rfl

/-! ### Compartments -/

@[simp] theorem modComp_bay (s : State) (i : Nat) (f : Comp → Comp) : (s.modComp i f).bay = s.bay := by
  unfold State.modComp; split <;> rfl
@[simp] theorem modComp_adm (s : State) (i : Nat) (f : Comp → Comp) : (s.modComp i f).adm = s.adm := by
  unfold State.modComp; split <;> rfl
@[simp] theorem modComp_circ (s : State) (i : Nat) (f : Comp → Comp) (c : Side) :
    (s.modComp i f).circ c = s.circ c := by unfold State.modComp; split <;> cases c <;> rfl
@[simp] theorem modComp_claim (s : State) (i : Nat) (f : Comp → Comp) (k : Consumer) :
    (s.modComp i f).claim k = s.claim k := by unfold State.modComp; split <;> cases k <;> rfl
@[simp] theorem modComp_fill (s : State) (i : Nat) (f : Comp → Comp) :
    (s.modComp i f).fill = s.fill := by unfold State.modComp; split <;> rfl
@[simp] theorem modComp_certs (s : State) (i : Nat) (f : Comp → Comp) :
    (s.modComp i f).certs = s.certs := by unfold State.modComp; split <;> rfl
@[simp] theorem modComp_events (s : State) (i : Nat) (f : Comp → Comp) :
    (s.modComp i f).events = s.events := by unfold State.modComp; split <;> rfl
@[simp] theorem modComp_safety (s : State) (i : Nat) (f : Comp → Comp) :
    (s.modComp i f).safety = s.safety := by unfold State.modComp; split <;> rfl
@[simp] theorem modComp_config (s : State) (i : Nat) (f : Comp → Comp) :
    (s.modComp i f).config = s.config := by unfold State.modComp; split <;> rfl
@[simp] theorem modComp_pins (s : State) (i : Nat) (f : Comp → Comp) :
    (s.modComp i f).pins = s.pins := by unfold State.modComp; split <;> rfl
@[simp] theorem modComp_line (s : State) (i : Nat) (f : Comp → Comp) :
    (s.modComp i f).line = s.line := by unfold State.modComp; split <;> rfl
@[simp] theorem modComp_peers (s : State) (i : Nat) (f : Comp → Comp) :
    (s.modComp i f).peers = s.peers := by unfold State.modComp; split <;> rfl

/-- The compartments after one is changed. -/
theorem modComp_comp? (s : State) (i m : Nat) (f : Comp → Comp) :
    (s.modComp i f).comp? m = if i = m then (s.comp? m).map f else s.comp? m := by
  cases ha : s.jobs.active with
  | none =>
    have hm : s.comp? m = none := by cases m <;> simp [State.comp?, State.comps, ha]
    have hs : s.modComp i f = s := by simp [State.modComp, ha]
    simp [hs, hm]
  | some j =>
    cases i with
    | zero => cases m <;> simp [State.modComp, State.comp?, ha]
    | succ k =>
      cases m with
      | zero => simp [State.comp?]
      | succ m =>
        simp only [State.modComp, State.comp?, State.comps, ha, List.getElem?_modify]
        by_cases hk : k = m <;> simp [hk]

/-! ### Events -/

@[simp] theorem raise_bay (k : EventKind) (a b c : Nat) (s : State) : (raise k a b c s).bay = s.bay := by
  unfold raise; split <;> (try split) <;> rfl
@[simp] theorem raise_ms (k : EventKind) (a b c : Nat) (s : State) : (raise k a b c s).ms = s.ms := by
  unfold raise; split <;> (try split) <;> rfl
@[simp] theorem raise_config (k : EventKind) (a b c : Nat) (s : State) :
    (raise k a b c s).config = s.config := by unfold raise; split <;> (try split) <;> rfl
@[simp] theorem raise_store (k : EventKind) (a b c : Nat) (s : State) :
    (raise k a b c s).store = s.store := by unfold raise; split <;> (try split) <;> rfl
@[simp] theorem raise_pins (k : EventKind) (a b c : Nat) (s : State) :
    (raise k a b c s).pins = s.pins := by unfold raise; split <;> (try split) <;> rfl
@[simp] theorem raise_jobs (k : EventKind) (a b c : Nat) (s : State) :
    (raise k a b c s).jobs = s.jobs := by unfold raise; split <;> (try split) <;> rfl
@[simp] theorem raise_circ (k : EventKind) (a b c : Nat) (s : State) (d : Side) :
    (raise k a b c s).circ d = s.circ d := by unfold raise; split <;> (try split) <;> cases d <;> rfl
@[simp] theorem raise_claim (k : EventKind) (a b c : Nat) (s : State) (m : Consumer) :
    (raise k a b c s).claim m = s.claim m := by unfold raise; split <;> (try split) <;> cases m <;> rfl
@[simp] theorem raise_fill (k : EventKind) (a b c : Nat) (s : State) :
    (raise k a b c s).fill = s.fill := by unfold raise; split <;> (try split) <;> rfl
@[simp] theorem raise_adm (k : EventKind) (a b c : Nat) (s : State) :
    (raise k a b c s).adm = s.adm := by unfold raise; split <;> (try split) <;> rfl
@[simp] theorem raise_peers (k : EventKind) (a b c : Nat) (s : State) :
    (raise k a b c s).peers = s.peers := by unfold raise; split <;> (try split) <;> rfl
@[simp] theorem raise_line (k : EventKind) (a b c : Nat) (s : State) :
    (raise k a b c s).line = s.line := by unfold raise; split <;> (try split) <;> rfl
@[simp] theorem raise_certs (k : EventKind) (a b c : Nat) (s : State) :
    (raise k a b c s).certs = s.certs := by unfold raise; split <;> (try split) <;> rfl
@[simp] theorem raise_safety (k : EventKind) (a b c : Nat) (s : State) :
    (raise k a b c s).safety = s.safety := by unfold raise; split <;> (try split) <;> rfl
@[simp] theorem raise_port (k : EventKind) (a b c : Nat) (s : State) :
    (raise k a b c s).port = s.port := by unfold raise; split <;> (try split) <;> rfl
@[simp] theorem raise_ownAddr (k : EventKind) (a b c : Nat) (s : State) :
    (raise k a b c s).ownAddr = s.ownAddr := by unfold raise; split <;> (try split) <;> rfl
@[simp] theorem raise_comp? (k : EventKind) (a b c : Nat) (s : State) (i : Nat) :
    (raise k a b c s).comp? i = s.comp? i := by unfold raise; split <;> (try split) <;> rfl

/-! ### Timers -/

@[simp] theorem startTimer_none (n : Nat) : startTimer none n = some n := rfl
@[simp] theorem startTimer_some (left n : Nat) : startTimer (some left) n = some left := rfl

end Sys2Proof.Machine
end

