-- ==== Sys2Proof/Laws/Ops.lean ====
section
/-!
SUPPORT. What each shared operation can do, said once: raising an event, a need change, the append of a
record, an outcome entered in the line-health window, the peer table, the exchange of the port.
-/

namespace Sys2Proof.Machine

open Sys2Proof.Safety

/-- All that raising an event can do (R193). -/
theorem raise_cases (k : EventKind) (a b c : Nat) (s : State) :
    raise k a b c s = s ∨ raise k a b c s = { s with events := { s.events with lost := true } } ∨
      (s.events.records.length < 32 ∧
        raise k a b c s =
          { s with
            events :=
              ⟨s.events.records ++ [⟨k, s.events.lost, BitVec.ofNat 8 a, BitVec.ofNat 8 b,
                BitVec.ofNat 8 c, s.ms⟩], false⟩ }) := by
  unfold raise
  split
  · split
    · exact .inr (.inr ⟨‹_›, rfl⟩)
    · exact .inr (.inl rfl)
  · exact .inl rfl

/-- The queue grows by at most one record and never beyond 32 (R193). -/
theorem raise_length (k : EventKind) (a b c : Nat) (s : State) (h : s.events.records.length ≤ 32) :
    (raise k a b c s).events.records.length ≤ 32 := by
  rcases raise_cases k a b c s with e | e | ⟨hl, e⟩ <;> rw [e]
  · exact h
  · exact h
  · simp only [List.length_append, List.length_cons, List.length_nil]; omega

/-- Everything a need change can do (R108). -/
theorem needChange_cases (k : Consumer) (need : Draws) (s : State) :
    (need = (s.claim k).need ∧ needChange k need s = s) ∨
      (need ≠ (s.claim k).need ∧ (s.claim k).state = .intent ∧
        needChange k need s = (dropIntent s).setClaim k ((s.claim k).changed s.adm.tick need)) ∨
      (need ≠ (s.claim k).need ∧ (s.claim k).state ≠ .intent ∧
        needChange k need s = s.setClaim k ((s.claim k).changed s.adm.tick need)) := by
  unfold needChange
  by_cases h : need = (s.claim k).need
  · simp [h]
  · by_cases hi : (s.claim k).state = .intent <;> simp [h, hi]

/-- After a need change the claim's need is the one named (R108). -/
theorem needChange_need (k : Consumer) (need : Draws) (s : State) :
    ((needChange k need s).claim k).need = need := by
  rcases needChange_cases k need s with ⟨h, e⟩ | ⟨-, -, e⟩ | ⟨-, -, e⟩ <;> rw [e]
  · exact h.symm
  · simp only [setClaim_claim, Claim.changed]; split <;> (try split) <;> rfl
  · simp only [setClaim_claim, Claim.changed]; split <;> (try split) <;> rfl

/-- A need change never raises what a claim holds (R108). -/
theorem changed_lowers (c : Claim) (tick : Count) (need : Draws) (q : Quantity) :
    (c.changed tick need).committed.amount q ≤ c.committed.amount q := by
  unfold Claim.changed
  cases q <;> (simp only; split <;> (try split)) <;>
    simp only [Draws.amount, Draws.lowered] <;> omega

/-- A claim a need change leaves SATISFIED holds exactly its need (R106, R108). -/
theorem changed_satisfied (c : Claim) (tick : Count) (need : Draws)
    (h : (c.changed tick need).state = .satisfied) :
    (c.changed tick need).committed = (c.changed tick need).need := by
  unfold Claim.changed at *
  simp only at *
  split at h
  · cases h
  · rename_i hz
    simp only [hz, if_false] at *
    split at h
    · rename_i hc
      simp [hc]
    · cases h

/-- A record appended: one more record, and its share of the reservation settled (R167). -/
theorem appendCert_certs (i : Nat) (record : List Byte) (s : State) :
    (appendCert i record s).certs =
      ⟨s.certs.records ++ [record], s.certs.reservedRecords - 1, s.certs.reservedBytes - 252⟩ := by
  simp [appendCert, CertQueue.append]

/-- Every outcome leaves the window at most 32 long (R159). -/
theorem windowWith_length (l : LineUnit) (bad : Bool) (h : l.window.length ≤ 32) :
    (l.windowWith bad).length ≤ 32 := by
  unfold LineUnit.windowWith
  split <;> simp only [List.length_append, List.length_drop, List.length_cons, List.length_nil] <;> omega

/-- The line after an outcome: the window, and the line state tested (R159, R160). -/
theorem enterOutcome_line (bad : Bool) (reason : DiscardReason) (s : State) :
    (enterOutcome bad reason s).line =
      { s.line with
        window := s.line.windowWith bad
        degraded :=
          (!s.line.degraded && decide (8 ≤ (s.line.windowWith bad).count true)) ||
          (s.line.degraded && !decide ((s.line.windowWith bad).count true ≤ 2)) } := by
  unfold enterOutcome
  by_cases h8 : 8 ≤ (s.line.windowWith bad).count true <;>
    by_cases h2 : (s.line.windowWith bad).count true ≤ 2 <;>
    cases hd : s.line.degraded <;> simp [LineUnit.badCount, hd, h8, h2]

/-- Putting an entry leaves every other address's entry (R133). -/
theorem find_putPeer_other (p : Peer) (ps : List Peer) (a : BitVec 4) (h : a ≠ p.address) :
    (putPeer p ps).find? (fun q => decide (q.address = a)) =
      ps.find? fun q => decide (q.address = a) := by
  induction ps with
  | nil => simp [putPeer, Ne.symm h]
  | cons q rest ih =>
    unfold putPeer
    split
    · rename_i e
      simp [Ne.symm h, e]
    · split
      · simp [List.find?_cons, Ne.symm h]
      · simp only [List.find?_cons, ih]

/-- The entry put is the one found (R133). -/
theorem find_putPeer_self (p : Peer) (ps : List Peer) :
    (putPeer p ps).find? (fun q => decide (q.address = p.address)) = some p := by
  induction ps with
  | nil => simp [putPeer]
  | cons q rest ih =>
    unfold putPeer
    split
    · simp
    · split
      · simp
      · rename_i e _
        simp [e, ih]

/-- With the exchange in progress, a request row answers its command (R185, R186). -/
theorem hostRequest_inExchange (acc : Accepts) (command : List Byte → State → Answer) (r : Request)
    (s : State) (h : inExchange s) :
    hostRequest acc command r s =
      { (answerCommand acc command r s).state with
        port :=
          (answerCommand acc command r s).state.port.answered
            (answerCommand acc command r s).response } := by
  have h' : s.port.exchange = .answering := h
  simp [hostRequest, endExchange, beginExchange, h']

/-- A body that fits is taken whole: no fault of structure, and the body as clocked (R186). -/
theorem structureFault_requestOf (body : List Byte) (s : State) (hb : bodyFits body)
    (hs : s.bay ≠ .resetting) :
    structureFault (requestOf body) s = none ∧ Request.body (requestOf body) = body := by
  have hb' : body.length ≤ 250 := hb
  have hm : body.length % 256 = body.length := Nat.mod_eq_of_lt (by omega)
  refine ⟨?_, ?_⟩
  · simp [structureFault, hs, Request.truncated, Request.bodyLength, requestOf, hm]; omega
  · simp [Request.body, Request.bodyLength, requestOf, hm]

/-- A circuit for which no queued compartment stands takes none, told by the list. -/
theorem nothingQueued_of_all (s : State) (c : Side)
    (h : s.comps.all (fun k => !decide (k.state = .queued) || !servesDrop c k.loaded.drop) = true) :
    nothingQueued s c := by
  intro m k hm hq
  cases m with
  | zero => simp [State.comp?] at hm
  | succ n =>
    have := List.all_eq_true.mp h k (List.mem_of_getElem? hm)
    simpa [hq] using this

end Sys2Proof.Machine
end

