-- ==== Sys2Proof/Laws/Work.lean ====
section
/-!
SUPPORT. What the operations on the bay's work leave alone: the job store, the circuits, the fill
controller, the claims, the records and the events are all they can change. One lemma an operation, and
for those with several outcomes one lemma that lists them.
-/

namespace Sys2Proof.Machine

/-- `t` differs from `s` in nothing but the job store, the fill controller, the circuits, the admission
unit, the certificate queue and the event queue. -/
def WorksOnly (s t : State) : Prop :=
  ∃ j f a b m c e,
    t = { s with jobs := j, fill := f, circA := a, circB := b, adm := m, certs := c, events := e }

namespace WorksOnly

theorem refl (s : State) : WorksOnly s s := ⟨_, _, _, _, _, _, _, rfl⟩

theorem trans {s t u : State} (h : WorksOnly s t) (k : WorksOnly t u) : WorksOnly s u := by
  obtain ⟨_, _, _, _, _, _, _, rfl⟩ := h
  obtain ⟨_, _, _, _, _, _, _, rfl⟩ := k
  exact ⟨_, _, _, _, _, _, _, rfl⟩

variable {s t : State}

theorem bay (h : WorksOnly s t) : t.bay = s.bay := by obtain ⟨_, _, _, _, _, _, _, rfl⟩ := h; rfl
theorem ms (h : WorksOnly s t) : t.ms = s.ms := by obtain ⟨_, _, _, _, _, _, _, rfl⟩ := h; rfl
theorem ownAddr (h : WorksOnly s t) : t.ownAddr = s.ownAddr := by
  obtain ⟨_, _, _, _, _, _, _, rfl⟩ := h; rfl
theorem sticky (h : WorksOnly s t) : t.sticky = s.sticky := by
  obtain ⟨_, _, _, _, _, _, _, rfl⟩ := h; rfl
theorem config (h : WorksOnly s t) : t.config = s.config := by
  obtain ⟨_, _, _, _, _, _, _, rfl⟩ := h; rfl
theorem store (h : WorksOnly s t) : t.store = s.store := by
  obtain ⟨_, _, _, _, _, _, _, rfl⟩ := h; rfl
theorem pins (h : WorksOnly s t) : t.pins = s.pins := by obtain ⟨_, _, _, _, _, _, _, rfl⟩ := h; rfl
theorem frontEnd (h : WorksOnly s t) : t.frontEnd = s.frontEnd := by
  obtain ⟨_, _, _, _, _, _, _, rfl⟩ := h; rfl
theorem peers (h : WorksOnly s t) : t.peers = s.peers := by
  obtain ⟨_, _, _, _, _, _, _, rfl⟩ := h; rfl
theorem line (h : WorksOnly s t) : t.line = s.line := by obtain ⟨_, _, _, _, _, _, _, rfl⟩ := h; rfl
theorem safety (h : WorksOnly s t) : t.safety = s.safety := by
  obtain ⟨_, _, _, _, _, _, _, rfl⟩ := h; rfl
theorem leaveTimer (h : WorksOnly s t) : t.leaveTimer = s.leaveTimer := by
  obtain ⟨_, _, _, _, _, _, _, rfl⟩ := h; rfl
theorem port (h : WorksOnly s t) : t.port = s.port := by obtain ⟨_, _, _, _, _, _, _, rfl⟩ := h; rfl
theorem tie (h : WorksOnly s t) : t.tie = s.tie := by obtain ⟨_, _, _, _, _, _, _, rfl⟩ := h; rfl
theorem drawn (h : WorksOnly s t) : t.drawn = s.drawn := by
  obtain ⟨_, _, _, _, _, _, _, rfl⟩ := h; rfl
theorem pending (h : WorksOnly s t) : t.pending = s.pending := by
  obtain ⟨_, _, _, _, _, _, _, rfl⟩ := h; rfl
theorem cfg (h : WorksOnly s t) : t.cfg = s.cfg := by obtain ⟨_, _, _, _, _, _, _, rfl⟩ := h; rfl

end WorksOnly

/-! ### Primitive updates -/

theorem setCirc_works (s : State) (c : Side) (x : Circuit) : WorksOnly s (s.setCirc c x) := by
  cases c <;> exact ⟨_, _, _, _, _, _, _, rfl⟩

theorem modCirc_works (s : State) (c : Side) (f : Circuit → Circuit) : WorksOnly s (s.modCirc c f) :=
  setCirc_works s c _

theorem setClaim_works (s : State) (k : Consumer) (x : Claim) : WorksOnly s (s.setClaim k x) := by
  cases k <;> exact ⟨_, _, _, _, _, _, _, rfl⟩

theorem dropIntent_works (s : State) : WorksOnly s (dropIntent s) := ⟨_, _, _, _, _, _, _, rfl⟩

theorem modComp_works (s : State) (i : Nat) (f : Comp → Comp) : WorksOnly s (s.modComp i f) := by
  unfold State.modComp
  split
  · exact ⟨_, _, _, _, _, _, _, rfl⟩
  · exact .refl s

theorem setCompState_works (i : Nat) (st : CompState) (o : Option Consumer) (s : State) :
    WorksOnly s (setCompState i st o s) := modComp_works s i _

theorem raise_works (k : EventKind) (a b c : Nat) (s : State) : WorksOnly s (raise k a b c s) := by
  rcases raise_cases k a b c s with h | h | ⟨-, h⟩ <;> rw [h]
  · exact .refl s
  all_goals exact ⟨_, _, _, _, _, _, _, rfl⟩

theorem needChange_works (k : Consumer) (need : Draws) (s : State) :
    WorksOnly s (needChange k need s) := by
  rcases needChange_cases k need s with ⟨-, h⟩ | ⟨-, -, h⟩ | ⟨-, -, h⟩ <;> rw [h]
  · exact .refl s
  · exact (dropIntent_works s).trans (setClaim_works _ _ _)
  · exact setClaim_works _ _ _

theorem fill_works (s : State) (f : FillController) : WorksOnly s { s with fill := f } :=
  ⟨_, _, _, _, _, _, _, rfl⟩

theorem jobs_works (s : State) (j : JobStore) : WorksOnly s { s with jobs := j } :=
  ⟨_, _, _, _, _, _, _, rfl⟩

/-! ### Records and jobs (R9, R20, R21) -/

theorem appendCert_works (i : Nat) (record : List Byte) (s : State) :
    WorksOnly s (appendCert i record s) :=
  (WorksOnly.trans ⟨_, _, _, _, _, _, _, rfl⟩ (raise_works _ _ _ _ _))

theorem handCert_works (i : Nat) (s : State) : WorksOnly s (handCert i s) := by
  unfold handCert
  split
  · exact appendCert_works _ _ _
  · exact .refl s

/-- All that a promotion attempt can do (R9, R10). -/
theorem tryPromote_cases (s : State) :
    (s.jobs.active ≠ none ∨ s.jobs.staged = none) ∧ tryPromote s = s ∨
      ∃ j, s.jobs.active = none ∧ s.jobs.staged = some j ∧
        (s.certs.fits j.comps.length = true ∧
            tryPromote s =
              raise .jobPromoted j.comps.length j.tag.toNat (j.tag.toNat / 256)
                { s with
                  certs := s.certs.reserve j.comps.length
                  jobs := { s.jobs with staged := none, active := some j.promoted } } ∨
          s.certs.fits j.comps.length = false ∧ j.waitMark = true ∧ tryPromote s = s ∨
          s.certs.fits j.comps.length = false ∧ j.waitMark = false ∧
            tryPromote s =
              raise .certWait j.comps.length (s.certs.byteExcess j.comps.length)
                (s.certs.byteExcess j.comps.length / 256)
                { s with jobs := { s.jobs with staged := some { j with waitMark := true } } }) := by
  cases ha : s.jobs.active with
  | some a => exact .inl ⟨.inl (by simp), by simp [tryPromote, ha]⟩
  | none =>
    cases hs : s.jobs.staged with
    | none => exact .inl ⟨.inr rfl, by simp [tryPromote, ha, hs]⟩
    | some j =>
      refine .inr ⟨j, rfl, rfl, ?_⟩
      cases hf : s.certs.fits j.comps.length with
      | true => exact .inl ⟨rfl, by simp [tryPromote, CertQueue.request, ha, hs, hf]⟩
      | false =>
        cases hw : j.waitMark with
        | true => exact .inr (.inl ⟨rfl, rfl, by simp [tryPromote, CertQueue.request, ha, hs, hf, hw]⟩)
        | false => exact .inr (.inr ⟨rfl, rfl, by simp [tryPromote, CertQueue.request, ha, hs, hf, hw]⟩)

theorem tryPromote_works (s : State) : WorksOnly s (tryPromote s) := by
  rcases tryPromote_cases s with ⟨-, h⟩ | ⟨j, -, -, ⟨-, h⟩ | ⟨-, -, h⟩ | ⟨-, -, h⟩⟩ <;> rw [h]
  · exact .refl s
  · exact WorksOnly.trans ⟨_, _, _, _, _, _, _, rfl⟩ (raise_works _ _ _ _ _)
  · exact .refl s
  · exact WorksOnly.trans ⟨_, _, _, _, _, _, _, rfl⟩ (raise_works _ _ _ _ _)

/-- The job end test does nothing while a compartment is not terminal, or with no job (R21). -/
theorem jobEndTest_goes_on (s : State)
    (h : ∀ j, s.jobs.active = some j → ∃ c ∈ j.comps, c.state.terminal = false) :
    jobEndTest s = s := by
  unfold jobEndTest
  split
  · rename_i j hj
    obtain ⟨c, hc, ht⟩ := h j hj
    have : (j.comps.all fun c => c.state.terminal) = false := by
      rw [List.all_eq_false]; exact ⟨c, hc, by simp [ht]⟩
    simp [this]
  · rfl

theorem jobEndTest_works (s : State) : WorksOnly s (jobEndTest s) := by
  unfold jobEndTest
  split
  · split
    · rename_i j _ _
      have h := (jobs_works s { s.jobs with previous := s.jobs.last, last := jobResult j.comps }).trans
        (raise_works .jobEnded (jobResult j.comps).code (doneCount j.comps) 0 _)
      exact (h.trans ⟨_, _, _, _, _, _, _, rfl⟩).trans (tryPromote_works _)
    · exact .refl s
  · exact .refl s

theorem endComp_works (i : Nat) (st : CompState) (reason : ResultCode) (s : State) :
    WorksOnly s (endComp i st reason s) :=
  ((modComp_works s i _).trans (handCert_works i _)).trans
    ((raise_works _ _ _ _ _).trans (jobEndTest_works _))

/-! ### The fill controller -/

theorem enterClosing_works (k : CloseKind) (s : State) : WorksOnly s (enterClosing k s) :=
  fill_works s _

theorem skidAnswer_works (s : State) : WorksOnly s (skidAnswer s) := by
  unfold skidAnswer; split
  · exact fill_works s _
  · exact fill_works s _

/-- What the controller does on a grant: it waits for the skid, or acts on its answer (R88). -/
theorem enterAwaitSkid_cases (s : State) :
    ∃ u, u = { s with
        fill :=
          { s.fill with
            state := .awaitSkid
            started := true
            skid := startTimer s.fill.skid (s.cfg.skidTimeout * 1000) } } ∧
      (s.deliv s.fill.line = false ∧ enterAwaitSkid s = u ∨
        s.deliv s.fill.line = true ∧ enterAwaitSkid s = skidAnswer u) := by
  refine ⟨_, rfl, ?_⟩
  cases h : s.deliv s.fill.line
  · exact .inl ⟨rfl, by simp [enterAwaitSkid, State.deliv] at *; simp [h]⟩
  · exact .inr ⟨rfl, by simp [enterAwaitSkid, State.deliv] at *; simp [h]⟩

theorem enterAwaitSkid_works (s : State) : WorksOnly s (enterAwaitSkid s) := by
  obtain ⟨u, rfl, ⟨-, h⟩ | ⟨-, h⟩⟩ := enterAwaitSkid_cases s <;> rw [h]
  · exact fill_works s _
  · exact (fill_works s _).trans (skidAnswer_works _)

theorem enterFillAdmission_works (s : State) : WorksOnly s (enterFillAdmission s) := by
  unfold enterFillAdmission
  have h : WorksOnly s
      (needChange .fill ⟨0, 0, 0, s.fill.line⟩
        { s with fill := { s.fill with state := .admitting, dropWait := none } }) :=
    (fill_works s _).trans (needChange_works _ _ _)
  simp only
  split
  · exact h.trans (enterAwaitSkid_works _)
  · exact h

theorem leaveWaitDropFill_works (s : State) : WorksOnly s (leaveWaitDropFill s) :=
  (setCompState_works _ _ _ _).trans (enterFillAdmission_works _)

theorem fillTakeComp_works (i : Nat) (c : LoadedComp) (rest : List Nat) (s : State) :
    WorksOnly s (fillTakeComp i c rest s) := by
  unfold fillTakeComp
  have h : WorksOnly s
      (setCompState i .waitDrop (some .fill) { s with fill := s.fill.taking i c rest }) :=
    (fill_works s _).trans (setCompState_works _ _ _ _)
  simp only
  split
  · exact h.trans (leaveWaitDropFill_works _)
  · exact h.trans (fill_works _ _)

theorem fillTake_works (s : State) : WorksOnly s (fillTake s) := by
  unfold fillTake
  split
  · split
    · split
      · exact fillTakeComp_works _ _ _ _
      · exact .refl s
    · exact .refl s
  · exact .refl s

theorem fillTakeIf_works (take : Bool) (s : State) : WorksOnly s (fillTakeIf take s) := by
  cases take
  · exact .refl s
  · exact fillTake_works s

theorem joinFillWait_works (i : Nat) (s : State) : WorksOnly s (joinFillWait i s) :=
  (setCompState_works _ _ _ _).trans (fill_works _ _)

theorem closeFillEntry_works (outcome : ResultCode) (s : State) :
    WorksOnly s (closeFillEntry outcome s) := by
  unfold closeFillEntry; split
  · exact modComp_works _ _ _
  · exact .refl s

theorem finishFill_works (st : CompState) (reason : ResultCode) (take : Bool) (s : State) :
    WorksOnly s (finishFill st reason take s) :=
  (needChange_works _ _ _).trans
    ((endComp_works _ _ _ _).trans ((fill_works _ _).trans (fillTakeIf_works _ _)))

theorem failFill_works (reason : ResultCode) (s : State) : WorksOnly s (failFill reason s) :=
  (fill_works s _).trans ((closeFillEntry_works _ _).trans (finishFill_works _ _ _ _))

theorem endFillAtOnce_works (st : CompState) (reason : ResultCode) (take : Bool) (s : State) :
    WorksOnly s (endFillAtOnce st reason take s) :=
  (closeFillEntry_works _ _).trans (finishFill_works _ _ _ _)

theorem learnTrail_works (s : State) : WorksOnly s (learnTrail s) := by
  unfold learnTrail; split
  · exact fill_works s _
  · exact .refl s

theorem endFillRunOut_works (s : State) : WorksOnly s (endFillRunOut s) :=
  (learnTrail_works s).trans ((closeFillEntry_works _ _).trans (finishFill_works _ _ _ _))

theorem interruptFill_works (s : State) : WorksOnly s (interruptFill s) :=
  (fill_works s _).trans (needChange_works _ _ _)

theorem fillEnterSafe_works (s : State) : WorksOnly s (fillEnterSafe s) := by
  unfold fillEnterSafe
  split <;> (try split) <;> first | exact .refl s | exact interruptFill_works s

theorem fillResume_works (s : State) : WorksOnly s (fillResume s) := by
  unfold fillResume
  split
  · refine (fill_works s { s.fill with interruptions := satInc s.fill.interruptions 255 }).trans ?_
    simp only
    split
    · exact (closeFillEntry_works _ _).trans (finishFill_works _ _ _ _)
    · split
      · exact (closeFillEntry_works _ _).trans (finishFill_works _ _ _ _)
      · exact WorksOnly.trans ⟨_, _, _, _, _, _, _, rfl⟩ (enterFillAdmission_works _)
  · exact .refl s

/-! ### The wash circuits -/

/-- Entering RUN is one circuit in RUN, or nothing where the circuit has no step (R36, R48). -/
theorem enterRun_cases (c : Side) (s : State) :
    s.stepOf c = none ∧ enterRun c s = s ∨
      ∃ st, s.stepOf c = some st ∧
        enterRun c s =
          s.setCirc c (((s.circ c).resumeCounts st.holdLimit).running st s.cfg s.pins.sump) := by
  unfold enterRun
  cases h : s.stepOf c with
  | none => exact .inl ⟨rfl, rfl⟩
  | some st => exact .inr ⟨st, rfl, rfl⟩

theorem enterRun_works (c : Side) (s : State) : WorksOnly s (enterRun c s) := by
  rcases enterRun_cases c s with ⟨-, h⟩ | ⟨st, -, h⟩ <;> rw [h]
  · exact .refl s
  · exact setCirc_works _ _ _

theorem enterPaused_works (c : Side) (s : State) : WorksOnly s (enterPaused c s) := modCirc_works _ _ _

/-- A grant is an entry into RUN for a circuit that waits for one, else nothing (R106). -/
theorem grantCirc_cases (c : Side) (s : State) :
    grantCirc c s = enterRun c s ∨ grantCirc c s = s := by
  unfold grantCirc; split <;> simp

theorem grantCirc_works (c : Side) (s : State) : WorksOnly s (grantCirc c s) := by
  rcases grantCirc_cases c s with h | h <;> rw [h]
  · exact enterRun_works c s
  · exact .refl s

/-- All that beginning a step can do: PAUSED in SAFE, RUN with its claim granted, else ADMIT (R36). -/
theorem beginStep_cases (c : Side) (n : Nat) (retrying : Bool) (s : State) :
    ∃ u v, u = s.setCirc c ((s.circ c).beginning n retrying) ∧
      v = needChange (sideConsumer c) (u.stepDraws c) u ∧
      (v.bay = .safe ∧ beginStep c n retrying s = enterPaused c v ∨
        v.bay ≠ .safe ∧ (v.claim (sideConsumer c)).granted = true ∧
          beginStep c n retrying s = enterRun c v ∨
        v.bay ≠ .safe ∧ (v.claim (sideConsumer c)).granted = false ∧
          beginStep c n retrying s = v) := by
  refine ⟨_, _, rfl, rfl, ?_⟩
  have e : beginStep c n retrying s =
      (fun v : State =>
        if v.inSafe then enterPaused c v
        else if (v.claim (sideConsumer c)).granted then enterRun c v else v)
      (needChange (sideConsumer c) ((s.setCirc c ((s.circ c).beginning n retrying)).stepDraws c)
        (s.setCirc c ((s.circ c).beginning n retrying))) := rfl
  rw [e]
  generalize needChange (sideConsumer c) _ _ = v
  by_cases hb : v.bay = .safe
  · exact .inl ⟨hb, by simp [State.inSafe, hb]⟩
  · cases hg : (v.claim (sideConsumer c)).granted
    · exact .inr (.inr ⟨hb, rfl, by simp [State.inSafe, hb, hg]⟩)
    · exact .inr (.inl ⟨hb, rfl, by simp [State.inSafe, hb, hg]⟩)

theorem beginStep_works (c : Side) (n : Nat) (retrying : Bool) (s : State) :
    WorksOnly s (beginStep c n retrying s) := by
  obtain ⟨u, v, rfl, rfl, h⟩ := beginStep_cases c n retrying s
  have hv := (setCirc_works s c ((s.circ c).beginning n retrying)).trans
    (needChange_works (sideConsumer c) ((s.setCirc c ((s.circ c).beginning n retrying)).stepDraws c) _)
  rcases h with ⟨-, h⟩ | ⟨-, -, h⟩ | ⟨-, -, h⟩ <;> rw [h]
  · exact hv.trans (enterPaused_works _ _)
  · exact hv.trans (enterRun_works _ _)
  · exact hv

theorem addRevolutions_works (c : Side) (st : Step) (s : State) : WorksOnly s (addRevolutions c st s) := by
  unfold addRevolutions; split
  · exact modComp_works _ _ _
  · exact .refl s

theorem closeStep_works (c : Side) (st : Step) (o : ResultCode) (s : State) :
    WorksOnly s (closeStep c st o s) :=
  (modCirc_works s c _).trans ((addRevolutions_works _ _ _).trans (raise_works _ _ _ _ _))

/-- Closing a step changes its circuit's entry list alone, by the entry closed (R42, R43, R50). -/
theorem closeStep_circ (c : Side) (st : Step) (o : ResultCode) (s : State) (d : Side) :
    (closeStep c st o s).circ d =
      if d = c then { s.circ c with entries := (s.circ c).entries ++ [s.entryOf c st o] }
      else s.circ d := by
  have h : ∀ u : State, (addRevolutions c st u).circ d = u.circ d := by
    intro u; unfold addRevolutions; split
    · simp only [modComp_circ]
    · rfl
  simp only [closeStep, raise_circ, h]
  split
  · rename_i e; subst e; simp only [State.modCirc, setCirc_circ]
  · rename_i e; simp only [State.modCirc, setCirc_circ_other s _ e]

/-- Closing a step leaves every claim and the fill controller alone. -/
theorem closeStep_claims (c : Side) (st : Step) (o : ResultCode) (s : State) :
    (closeStep c st o s).adm = s.adm ∧ (closeStep c st o s).fill = s.fill := by
  have h : ∀ u : State, (addRevolutions c st u).adm = u.adm ∧ (addRevolutions c st u).fill = u.fill := by
    intro u; unfold addRevolutions; split
    · simp only [modComp_adm, modComp_fill, and_self]
    · exact ⟨rfl, rfl⟩
  simp only [closeStep, raise_adm, raise_fill, h, State.modCirc, setCirc_adm, setCirc_fill, and_self]

theorem leaveWaitDropCirc_works (c : Side) (s : State) : WorksOnly s (leaveWaitDropCirc c s) :=
  (setCompState_works _ _ _ _).trans (beginStep_works _ _ _ _)

theorem circTakeComp_works (c : Side) (i drop : Nat) (s : State) :
    WorksOnly s (circTakeComp c i drop s) := by
  unfold circTakeComp
  have h := (modCirc_works s c fun x => x.taking i drop).trans
    (modComp_works (s.modCirc c fun x => x.taking i drop) i fun k => k.takenBy c)
  simp only
  split
  · exact h.trans (leaveWaitDropCirc_works _ _)
  · exact h.trans (modCirc_works _ _ _)

theorem circTake_works (c : Side) (s : State) : WorksOnly s (circTake c s) := by
  unfold circTake
  simp only
  split
  · split
    · split
      · exact circTakeComp_works _ _ _ _
      · exact .refl s
    · exact .refl s
  · exact .refl s

theorem circTakeIf_works (take : Bool) (c : Side) (s : State) : WorksOnly s (circTakeIf take c s) := by
  cases take
  · exact .refl s
  · exact circTake_works c s

theorem handEntries_works (c : Side) (s : State) : WorksOnly s (handEntries c s) :=
  (modComp_works s (s.circ c).comp fun k => { k with entries := (s.circ c).entries }).trans
    (modCirc_works _ c fun y => { y with entries := [] })

theorem releaseComp_works (c : Side) (s : State) : WorksOnly s (releaseComp c s) :=
  (needChange_works _ _ _).trans (handEntries_works _ _)

theorem endCompFromCirc_works (c : Side) (st : CompState) (reason : ResultCode) (take : Bool)
    (s : State) : WorksOnly s (endCompFromCirc c st reason take s) :=
  (releaseComp_works c s).trans
    ((endComp_works _ _ _ _).trans ((modCirc_works _ _ _).trans (circTakeIf_works _ _ _)))

theorem deliverOutcome_works (i : Nat) (carried : Option Carried) (s : State) :
    WorksOnly s (deliverOutcome i carried s) := by
  unfold deliverOutcome
  split
  · split
    · split
      · exact endComp_works _ _ _ _
      · exact joinFillWait_works _ _
    · exact .refl s
  · exact endComp_works _ _ _ _
  · exact .refl s

theorem endRunOut_works (c : Side) (take : Bool) (s : State) : WorksOnly s (endRunOut c take s) :=
  (releaseComp_works c s).trans
    ((deliverOutcome_works _ _ _).trans
      ((modCirc_works _ _ _).trans ((fillTakeIf_works _ _).trans (circTakeIf_works _ _ _))))

/-- All that entering RUN_OUT can do: the run-out begins, or at a run-out time of 0 ends at once
(R49). -/
theorem enterRunOut_cases (c : Side) (carried : Carried) (take : Bool) (s : State) :
    ∃ u v, u = s.setCirc c ((s.circ c).runningOut carried (s.cfg.runOutTime * 1000)) ∧
      v = setCompState (s.circ c).comp .ending (some (sideConsumer c))
        (needChange (sideConsumer c) (s.claim (sideConsumer c)).drainOnly u) ∧
      (s.cfg.runOutTime = 0 ∧ enterRunOut c carried take s = endRunOut c take v ∨
        s.cfg.runOutTime ≠ 0 ∧ enterRunOut c carried take s = v) := by
  refine ⟨_, _, rfl, rfl, ?_⟩
  unfold enterRunOut
  simp only [State.modCirc, setCirc_claim]
  by_cases h : s.cfg.runOutTime = 0
  · exact .inl ⟨h, by simp [h]⟩
  · exact .inr ⟨h, by simp [h]⟩

theorem enterRunOut_works (c : Side) (carried : Carried) (take : Bool) (s : State) :
    WorksOnly s (enterRunOut c carried take s) := by
  obtain ⟨u, v, rfl, rfl, h⟩ := enterRunOut_cases c carried take s
  have hv := (setCirc_works s c ((s.circ c).runningOut carried (s.cfg.runOutTime * 1000))).trans
    ((needChange_works (sideConsumer c) (s.claim (sideConsumer c)).drainOnly _).trans
      (setCompState_works (s.circ c).comp .ending (some (sideConsumer c)) _))
  rcases h with ⟨-, h⟩ | ⟨-, h⟩ <;> rw [h]
  · exact hv.trans (endRunOut_works _ _ _)
  · exact hv

theorem finishStep_works (c : Side) (st : Step) (o : ResultCode) (s : State) :
    WorksOnly s (finishStep c st o s) := (closeStep_works _ _ _ _).trans (beginStep_works _ _ _ _)

theorem failStep_works (c : Side) (st : Step) (reason : ResultCode) (s : State) :
    WorksOnly s (failStep c st reason s) :=
  (closeStep_works _ _ _ _).trans (enterRunOut_works _ _ _ _)

theorem cutStep_works (c : Side) (s : State) : WorksOnly s (cutStep c s) := by
  unfold cutStep
  split
  · split
    · exact closeStep_works _ _ _ _
    · exact .refl s
  · exact .refl s

/-! ### Aborts, drop losses, grants (R22 to R24, R106, R121) -/

theorem cutWashing_works (c : Side) (k : Cut) (take : Bool) (s : State) :
    WorksOnly s (cutWashing c k take s) := by
  have h (x : Carried) : WorksOnly s (enterRunOut c x take (cutStep c s)) :=
    (cutStep_works c s).trans (enterRunOut_works _ _ _ _)
  unfold cutWashing
  split
  · split
    · exact (cutStep_works c s).trans (endCompFromCirc_works _ _ _ _ _)
    · exact h _
  · exact h _
  · exact h _
  all_goals exact .refl s

theorem recutClosing_works (k : Cut) (s : State) : WorksOnly s (recutClosing k s) := by
  unfold recutClosing; split <;> first | exact .refl s | exact fill_works s _

theorem cutFilling_works (i : Nat) (k : Cut) (take : Bool) (s : State) :
    WorksOnly s (cutFilling i k take s) := by
  unfold cutFilling
  split
  · exact endFillAtOnce_works _ _ _ _
  · exact endFillAtOnce_works _ _ _ _
  · exact endFillAtOnce_works _ _ _ _
  · exact (enterClosing_works _ s).trans (setCompState_works _ _ _ _)
  · exact (recutClosing_works _ s).trans (setCompState_works _ _ _ _)
  all_goals exact .refl s

theorem abortWaiting_works (o : Option Consumer) (take : Bool) (s : State) :
    WorksOnly s (abortWaiting o take s) := by
  unfold abortWaiting; split
  · exact endCompFromCirc_works _ _ _ _ _
  · exact endCompFromCirc_works _ _ _ _ _
  · exact endFillAtOnce_works _ _ _ _
  · exact .refl s

theorem abortFillWait_works (i : Nat) (s : State) : WorksOnly s (abortFillWait i s) :=
  (fill_works s _).trans (endComp_works _ _ _ _)

theorem cutOwner_works (o : Option Consumer) (k : Cut) (take : Bool) (s : State) :
    WorksOnly s (cutOwner o k take s) := by
  unfold cutOwner; split
  · exact cutWashing_works _ _ _ _
  · exact cutWashing_works _ _ _ _
  all_goals exact .refl s

theorem abortCompartment_works (i : Nat) (take : Bool) (s : State) :
    WorksOnly s (abortCompartment i take s) := by
  unfold abortCompartment
  split
  · split
    · exact endComp_works _ _ _ _
    · exact abortWaiting_works _ _ _
    · exact cutOwner_works _ _ _ _
    · exact abortFillWait_works _ _
    · exact cutFilling_works _ _ _ _
    all_goals exact .refl s
  · exact .refl s

theorem abortAll_works (s : State) : WorksOnly s (abortAll s) := by
  unfold abortAll
  generalize abortTargets 1 s.comps = is
  induction is generalizing s with
  | nil => exact .refl s
  | cons i rest ih => exact (abortCompartment_works i false s).trans (ih _)

theorem loseDrop_works (i : Nat) (s : State) : WorksOnly s (loseDrop i s) := by
  unfold loseDrop
  split
  · split
    · exact cutOwner_works _ _ _ _
    · exact cutFilling_works _ _ _ _
    all_goals exact .refl s
  · exact .refl s

theorem connectDrop_works (i : Nat) (s : State) : WorksOnly s (connectDrop i s) := by
  unfold connectDrop connectOwner
  split
  · split
    · split
      · exact leaveWaitDropCirc_works _ _
      · exact leaveWaitDropCirc_works _ _
      · exact leaveWaitDropFill_works _
      · exact .refl s
    · exact .refl s
  · exact .refl s

theorem shedClaim_works (c : Side) (q : Quantity) (s : State) : WorksOnly s (shedClaim c q s) := by
  have h1 : WorksOnly s
      (if (s.claim (sideConsumer c)).state = .intent then dropIntent s else s) := by
    split
    · exact dropIntent_works s
    · exact .refl s
  have h2 (u : State) : WorksOnly u (circShed c u) := by
    unfold circShed; split
    · exact enterPaused_works _ _
    · exact .refl u
  exact h1.trans ((setClaim_works _ _ _).trans ((raise_works _ _ _ _ _).trans (h2 _)))

theorem shedEvaluation_works (s : State) : WorksOnly s (shedEvaluation s) := by
  unfold shedEvaluation
  split
  · split
    · exact shedClaim_works _ _ _
    · exact .refl s
  · exact .refl s

/-- The admission test does nothing outside the three blocks of the work; it commits or returns the one
claim in INTENT (R112 to R117). -/
theorem admissionTest_works (s : State) : WorksOnly s (admissionTest s) := by
  have hg (k : Consumer) (u : State) : WorksOnly u (grantConsumer k u) := by
    unfold grantConsumer; split
    · exact grantCirc_works _ _
    · exact grantCirc_works _ _
    · split
      · exact enterAwaitSkid_works _
      · exact .refl _
  unfold admissionTest
  split
  · split
    · exact ((setClaim_works s _ _).trans (dropIntent_works _)).trans (hg _ _)
    · exact (setClaim_works _ _ _).trans (dropIntent_works _)
  · exact dropIntent_works s

end Sys2Proof.Machine
end

