-- ==== Sys2Proof/Laws/Line.lean ====
section
/-!
SUPPORT. What the operations of the yard line, the peer table and the safe stop leave alone, and the
cases of those with several outcomes; the beginning of an attempt, the outcome of a cut fill and the shedding
decision in the words of Safety.lean.
-/

namespace Sys2Proof.Machine

open Sys2Proof.Safety

/-- `t` differs from `s` in nothing but the yard line unit, the peer table, the admission unit, the event
queue and the sticky flags. -/
def HearsOnly (s t : State) : Prop :=
  ∃ l p a e k, t = { s with line := l, peers := p, adm := a, events := e, sticky := k }

namespace HearsOnly

theorem refl (s : State) : HearsOnly s s := ⟨_, _, _, _, _, rfl⟩

theorem trans {s t u : State} (h : HearsOnly s t) (k : HearsOnly t u) : HearsOnly s u := by
  obtain ⟨_, _, _, _, _, rfl⟩ := h
  obtain ⟨_, _, _, _, _, rfl⟩ := k
  exact ⟨_, _, _, _, _, rfl⟩

/-- The frame the statements on the line's rows name. -/
theorem frame {s t : State} (h : HearsOnly s t) : lineFrame s t ∧ t.pins = s.pins := by
  obtain ⟨_, _, _, _, _, rfl⟩ := h
  exact ⟨⟨rfl, rfl, rfl, rfl, rfl, rfl, rfl, rfl, rfl, rfl, rfl, rfl, rfl, rfl, rfl, rfl, rfl⟩, rfl⟩

end HearsOnly

theorem raise_hears (k : EventKind) (a b c : Nat) (s : State) : HearsOnly s (raise k a b c s) := by
  rcases raise_cases k a b c s with h | h | ⟨-, h⟩ <;> rw [h]
  · exact .refl s
  all_goals exact ⟨_, _, _, _, _, rfl⟩

theorem line_hears (s : State) (l : LineUnit) : HearsOnly s { s with line := l } := ⟨_, _, _, _, _, rfl⟩

/-- All that an outcome entered in the window can do: the line turns DEGRADED, turns GOOD, or stays
(R159, R160). -/
theorem enterOutcome_cases (bad : Bool) (reason : DiscardReason) (s : State) :
    ∃ l, l = { s.line with window := s.line.windowWith bad } ∧
      (l.degraded = false ∧ 8 ≤ l.badCount ∧
          enterOutcome bad reason s =
            raise .lineDegraded l.badCount reason.code 0 { s with line := { l with degraded := true } } ∨
        l.degraded = true ∧ l.badCount ≤ 2 ∧
          enterOutcome bad reason s =
            raise .lineGood l.badCount 0 0 { s with line := { l with degraded := false } } ∨
        enterOutcome bad reason s = { s with line := l }) := by
  refine ⟨_, rfl, ?_⟩
  unfold enterOutcome
  simp only [Bool.and_eq_true, Bool.not_eq_true', decide_eq_true_eq]
  split
  · rename_i h; exact .inl ⟨h.1, h.2, rfl⟩
  · split
    · rename_i h; exact .inr (.inl ⟨h.1, h.2, rfl⟩)
    · exact .inr (.inr rfl)

theorem enterOutcome_hears (bad : Bool) (reason : DiscardReason) (s : State) :
    HearsOnly s (enterOutcome bad reason s) := by
  obtain ⟨l, -, ⟨-, -, h⟩ | ⟨-, -, h⟩ | h⟩ := enterOutcome_cases bad reason s <;> rw [h]
  · exact (line_hears s _).trans (raise_hears _ _ _ _ _)
  · exact (line_hears s _).trans (raise_hears _ _ _ _ _)
  · exact line_hears s _

theorem framerIdle_hears (s : State) : HearsOnly s (framerIdle s) := line_hears s _

theorem noteDiscard_hears (f : Framer) (reason : DiscardReason) (s : State) :
    HearsOnly s (noteDiscard f reason s) := by
  unfold noteDiscard
  split
  · exact .refl s
  · refine HearsOnly.trans ?_ (enterOutcome_hears _ _ _)
    exact ⟨_, _, _, _, _, rfl⟩

theorem discardFrame_hears (reason : DiscardReason) (s : State) :
    HearsOnly s (discardFrame reason s) :=
  (framerIdle_hears s).trans (noteDiscard_hears _ _ _)

theorem handAnnounce_hears (s : State) : HearsOnly s (handAnnounce s) := line_hears s _

theorem handLeave_hears (a b : Bool) (s : State) : HearsOnly s (handLeave a b s) := line_hears s _

theorem handRollCall_hears (s : State) : HearsOnly s (handRollCall s) := line_hears s _

/-! ### The peer table (R134 to R139) -/

/-- All that storing an entry can do: the entry put in its place, with CAPSET_MISMATCH raised at the first
difference (R137). -/
theorem storePeer_cases (p : Peer) (s : State) :
    ∃ u, u = { s with peers := putPeer (p.compared (s.mismatches p.capSet)) s.peers } ∧
      (s.mismatches p.capSet = true ∧ p.mismatchReported = false ∧
          storePeer p s = raise .capSetMismatch p.address.toNat p.capSet.toNat s.cfg.capSet u ∨
        (s.mismatches p.capSet = false ∨ p.mismatchReported = true) ∧ storePeer p s = u) := by
  refine ⟨_, rfl, ?_⟩
  unfold storePeer
  cases h : s.mismatches p.capSet <;> cases hr : p.mismatchReported <;> simp

theorem storePeer_hears (p : Peer) (s : State) : HearsOnly s (storePeer p s) := by
  obtain ⟨u, rfl, ⟨-, -, h⟩ | ⟨-, h⟩⟩ := storePeer_cases p s <;> rw [h]
  · exact HearsOnly.trans ⟨_, _, _, _, _, rfl⟩ (raise_hears _ _ _ _ _)
  · exact ⟨_, _, _, _, _, rfl⟩

theorem takeAnnounce_hears (r : StationReport) (s : State) : HearsOnly s (takeAnnounce r s) := by
  unfold takeAnnounce; split
  · exact storePeer_hears _ _
  · exact (storePeer_hears _ _).trans (raise_hears _ _ _ _ _)

theorem takeLeave_hears (a : BitVec 4) (s : State) : HearsOnly s (takeLeave a s) := by
  unfold takeLeave; split
  · exact HearsOnly.trans ⟨_, _, _, _, _, rfl⟩ (raise_hears _ _ _ _ _)
  · exact .refl s

/-- A roll call may bring the own tick forward to the first-slot offset, and nothing else (R130). -/
theorem moveTick_eq (s : State) :
    moveTick s =
      { s with adm := { s.adm with announce := s.adm.announce.map fun n => min n s.slotOffset } } := by
  cases h : s.adm.announce with
  | none => simp only [moveTick, h, Option.map_none]; rw [← h]
  | some n =>
    by_cases hn : s.slotOffset < n
    · simp only [moveTick, h, hn, if_true, Option.map_some]; rw [Nat.min_eq_right (Nat.le_of_lt hn)]
    · simp only [moveTick, h, hn, if_false, Option.map_some]
      rw [Nat.min_eq_left (Nat.le_of_not_lt hn), ← h]

theorem takeRollCall_hears (a : BitVec 4) (id : Byte) (s : State) :
    HearsOnly s (takeRollCall a id s) := by
  unfold takeRollCall
  rw [moveTick_eq]
  simp only
  split
  · exact HearsOnly.trans ⟨_, _, _, _, _, rfl⟩ (storePeer_hears _ _)
  · exact ⟨_, _, _, _, _, rfl⟩

/-- A good frame that is not the bay's own address changes what its effect changes, with the framer in
IDLE and its outcome entered (R134, R140). -/
theorem receiveFrame_hears (a : BitVec 4) (effect : State → State) (s : State)
    (he : ∀ u, HearsOnly u (effect u)) (ha : s.ownAddr ≠ some a) :
    HearsOnly s (receiveFrame a effect s) := by
  have ht (u : State) (hu : u.ownAddr ≠ some a) : HearsOnly u (takeFrame a effect u) := by
    unfold takeFrame
    split
    · exact .refl u
    · split
      · exact .refl u
      · exact he u
  unfold receiveFrame
  split
  · refine HearsOnly.trans ?_ (enterOutcome_hears _ _ _)
    exact HearsOnly.trans (line_hears s s.line.atFlag) (ht { s with line := s.line.atFlag } ha)
  · exact .refl s

/-! ### Bits and samples (R144 to R157) -/

/-- All that a closing flag can bring: nothing for an own frame, a discard, or the frame handed and a good
outcome (R151, R158, R159). -/
theorem closeFrame_cases (f : Framer) (bits : List Bool) (s : State) :
    f.own = true ∧ closeFrame f bits s = s ∨
      f.own = false ∧
        ((∃ reason, checkFrame bits = some reason ∧ closeFrame f bits s = noteDiscard f reason s) ∨
          checkFrame bits = none ∧
            closeFrame f bits s =
              enterOutcome false .none
                (handFrame (contentOf (bits.take (bits.length - 16))) s)) := by
  unfold closeFrame
  cases ho : f.own with
  | true => exact .inl ⟨rfl, rfl⟩
  | false =>
    refine .inr ⟨rfl, ?_⟩
    cases hc : checkFrame bits with
    | none => exact .inr ⟨rfl, rfl⟩
    | some reason => exact .inl ⟨reason, rfl, rfl⟩

/-- All that a readback can bring: nothing outside the cells of an attempt or at a match before the last
bit, the attempt SENT at a match there, arbitration lost or a bit error at a mismatch (R155 to R157). -/
theorem readBack_cases (b : Bool) (s : State) :
    (∀ a, s.line.attempt = some a → a.cells = 0) ∧ readBack b s = s ∨
      ∃ a k, s.line.attempt = some a ∧ a.cells = k + 1 ∧
        ((lineBits a.content).getD k true = b ∧ k + 1 ≠ (lineBits a.content).length ∧
            readBack b s = s ∨
          (lineBits a.content).getD k true = b ∧ k + 1 = (lineBits a.content).length ∧
            readBack b s = sendDone a s ∨
          (lineBits a.content).getD k true ≠ b ∧ losesAt a.content k = true ∧
            readBack b s = loseArbitration s ∨
          (lineBits a.content).getD k true ≠ b ∧ losesAt a.content k = false ∧
            readBack b s = failAttempt s) := by
  unfold readBack
  cases ha : s.line.attempt with
  | none => exact .inl ⟨by simp, rfl⟩
  | some a =>
    cases hc : a.cells with
    | zero => exact .inl ⟨by simp [hc], by simp [hc]⟩
    | succ k =>
      refine .inr ⟨a, k, rfl, hc, ?_⟩
      by_cases hb : (lineBits a.content).getD k true = b
      · by_cases hl : k + 1 = (lineBits a.content).length
        · exact .inr (.inl ⟨hb, hl, by simp only [hc]; rw [if_pos hb, if_pos hl]⟩)
        · exact .inl ⟨hb, hl, by simp only [hc]; rw [if_pos hb, if_neg hl]⟩
      · cases hl : losesAt a.content k with
        | true => exact .inr (.inr (.inl ⟨hb, rfl, by simp only [hc]; rw [if_neg hb, if_pos hl]⟩))
        | false => exact .inr (.inr (.inr ⟨hb, rfl, by
          simp only [hc]; rw [if_neg hb, if_neg (by simp [hl])]⟩))

/-- In SETUP no sample is taken (R143). -/
theorem quietSample_setup (s : State) (h : s.bay = .setup) : quietSample s = s := by
  simp [quietSample, State.lineRuns, h]

theorem quietSamples_setup (n : Nat) (s : State) (h : s.bay = .setup) : quietSamples n s = s := by
  induction n with
  | zero => rfl
  | succ n ih => rw [quietSamples, quietSample_setup s h, ih]

/-- Samples add up. -/
theorem quietSamples_add (m n : Nat) (s : State) :
    quietSamples (m + n) s = quietSamples n (quietSamples m s) := by
  induction m generalizing s with
  | zero => simp [quietSamples]
  | succ m ih => rw [Nat.succ_add, quietSamples, quietSamples, ih]

/-- What waiting for an event finds: the first sample, among those allowed, at which it comes. -/
theorem quietUntil_some (p : State → State → Bool) (n : Nat) (s t : State)
    (h : quietUntil p n s = some t) :
    ∃ k, k < n ∧ t = quietSamples (k + 1) s ∧ p (quietSamples k s) t = true ∧
      ∀ j, j < k → p (quietSamples j s) (quietSamples (j + 1) s) = false := by
  induction n generalizing s with
  | zero => cases h
  | succ n ih =>
    rw [quietUntil] at h
    split at h
    · rename_i hp
      cases h
      exact ⟨0, Nat.succ_pos n, rfl, hp, fun j hj => absurd hj (Nat.not_lt_zero j)⟩
    · rename_i hp
      obtain ⟨k, hk, rfl, hpk, hj⟩ := ih _ h
      refine ⟨k + 1, Nat.succ_lt_succ hk, rfl, hpk, fun j hjk => ?_⟩
      cases j with
      | zero => exact Bool.eq_false_iff.mpr hp
      | succ j => exact hj j (Nat.lt_of_succ_lt_succ hjk)

/-- Waiting for an event leaves the state as it was, or ends at the first sample that brings it. -/
theorem runUntil_cases (p : State → State → Bool) (s : State) :
    runUntil p s = s ∨
      ∃ k, k < lineHorizon ∧ runUntil p s = quietSamples (k + 1) s ∧
        p (quietSamples k s) (quietSamples (k + 1) s) = true ∧
        ∀ j, j < k → p (quietSamples j s) (quietSamples (j + 1) s) = false := by
  unfold runUntil
  cases h : quietUntil p lineHorizon s with
  | none => exact .inl rfl
  | some t =>
    obtain ⟨k, hk, rfl, hp, hj⟩ := quietUntil_some p _ s t h
    exact .inr ⟨k, hk, rfl, hp, hj⟩

theorem runUntil_setup (p : State → State → Bool) (s : State) (h : s.bay = .setup) :
    runUntil p s = s := by
  rcases runUntil_cases p s with e | ⟨k, -, e, -⟩
  · exact e
  · rw [e, quietSamples_setup _ s h]

/-- The samples up to the end of a cell are some samples at which the line keeps its level. -/
theorem toCellEnd_samples (n : Nat) (s : State) : ∃ k, k ≤ n ∧ toCellEnd n s = quietSamples k s := by
  induction n generalizing s with
  | zero => exact ⟨0, Nat.le_refl _, rfl⟩
  | succ n ih =>
    unfold toCellEnd
    split
    · exact ⟨0, Nat.zero_le _, rfl⟩
    · obtain ⟨k, hk, e⟩ := ih (quietSample s)
      exact ⟨k + 1, Nat.succ_le_succ hk, e⟩

/-! ### RESETN (R197) -/

@[simp] theorem assertResetn_resetn (s : State) : (assertResetn s).pins.resetn = true := rfl
@[simp] theorem releaseResetn_pins (s : State) :
    (releaseResetn s).pins = { s.pins with resetn := false } := rfl
@[simp] theorem releaseResetn_pending (s : State) : (releaseResetn s).pending = s.pending := rfl

/-- A deassertion after an assertion leaves of the state before only what the outside holds. -/
theorem releaseResetn_assertResetn (s : State) :
    releaseResetn (assertResetn s) =
      { State.reset with
        pins := { s.pins with resetn := false }
        port := { Port.reset with exchange := if s.port.exchange = .none then .none else .notTaken }
        tie := s.tie
        drawn := s.drawn
        pending := s.pending } := by
  cases h : s.port.exchange <;> simp [releaseResetn, assertResetn, Port.cut, h]

/-! ### Safe stop (R173 to R182) -/

/-- Whether a cause enters SAFE, joins the set, or has no effect is the bay state's (R173, R178). -/
theorem arriveCause_cases (c : Cause) (s : State) :
    notStopped s ∧ arriveCause c s = enterSafe c s ∨
      s.bay = .safe ∧ arriveCause c s = joinCause c s ∨
      (s.bay = .setup ∨ s.bay = .resetting) ∧ arriveCause c s = s := by
  unfold arriveCause notStopped
  cases h : s.bay <;> simp

/-- The silence begins with a LEAVE handed, from QUIET alone (R179). -/
theorem silenceBegin_cases (s : State) :
    s.safety.silence = .quiet ∧
        silenceBegin s =
          { handLeave true false s with safety := { s.safety with silence := .leavePending } } ∨
      s.safety.silence ≠ .quiet ∧ silenceBegin s = s := by
  unfold silenceBegin
  cases h : s.safety.silence
  · exact .inl ⟨rfl, rfl⟩
  · exact .inr ⟨by decide, rfl⟩
  · exact .inr ⟨by decide, rfl⟩

/-- A claim zeroed holds nothing and its consumer waits for it, or it is IDLE (R118). -/
theorem zeroed_holds_nothing (c : Claim) (tick : Count) :
    (c.zeroed tick).committed = .zero ∧ (c.zeroed tick).need = c.need ∧
      (c.zeroed tick).state ≠ .intent ∧ (c.zeroed tick).state ≠ .satisfied := by
  refine ⟨rfl, rfl, ?_, ?_⟩ <;> cases h : c.state <;> simp [Claim.zeroed, h]

theorem circEnterSafe_works (c : Side) (s : State) : WorksOnly s (circEnterSafe c s) := by
  unfold circEnterSafe; split <;> first | exact .refl s | exact enterPaused_works c s

/-- Entering SAFE leaves everything outside the work, the line's pending frame, the safety record and the
bay state alone (R174). -/
theorem enterSafe_frame (c : Cause) (s : State) :
    (enterSafe c s).bay = .safe ∧ (enterSafe c s).config = s.config ∧
      (enterSafe c s).store = s.store ∧ (enterSafe c s).pins = s.pins ∧
      (enterSafe c s).peers = s.peers ∧ (enterSafe c s).port = s.port ∧
      (enterSafe c s).ms = s.ms ∧ (enterSafe c s).ownAddr = s.ownAddr ∧
      (enterSafe c s).sticky = s.sticky ∧ (enterSafe c s).pending = s.pending := by
  have h1 : WorksOnly (captureSafe c s)
      (fillEnterSafe (circEnterSafe .b (circEnterSafe .a (captureSafe c s)))) :=
    (circEnterSafe_works _ _).trans ((circEnterSafe_works _ _).trans (fillEnterSafe_works _))
  have h2 (u : State) : ∃ l p, silenceFor c u = { u with line := l, safety := p } := by
    cases c
    case pfw =>
      rcases silenceBegin_cases u with ⟨-, h⟩ | ⟨-, h⟩
      · exact ⟨_, _, h⟩
      · exact ⟨u.line, u.safety, h⟩
    all_goals exact ⟨_, _, rfl⟩
  unfold enterSafe
  obtain ⟨l, p, hs⟩ := h2 (becomeSafe (zeroClaims
    (fillEnterSafe (circEnterSafe .b (circEnterSafe .a (captureSafe c s))))))
  simp only
  rw [hs]
  have hr := raise_works .safeEntered c.bit s.bay.code 0
    { becomeSafe (zeroClaims
        (fillEnterSafe (circEnterSafe .b (circEnterSafe .a (captureSafe c s))))) with
      line := l, safety := p }
  exact ⟨hr.bay, hr.config.trans h1.config, hr.store.trans h1.store, hr.pins.trans h1.pins,
    hr.peers.trans h1.peers, hr.port.trans h1.port, hr.ms.trans h1.ms, hr.ownAddr.trans h1.ownAddr,
    hr.sticky.trans h1.sticky, hr.pending.trans h1.pending⟩

/-! ### Attempts, cut fills and shedding in the statements' words -/

/-- An attempt begins after at most 32 samples, after none at a cell's first sample (R154). -/
theorem beforeCell_samples (s : State) : ∃ k, k ≤ 32 ∧ beforeCell s = quietSamples k s := by
  unfold beforeCell
  split
  · exact ⟨0, Nat.zero_le _, rfl⟩
  · exact toCellEnd_samples 32 s

theorem beforeCell_at_start (s : State) (h : s.line.clock.sample = 0) : beforeCell s = s := by
  simp [beforeCell, LineUnit.atCellStart, h]

/-- The outcome of a cut fill is the one the statements name (R22, R99). -/
theorem cutResult_eq (s : State) : s.cutResult = cutOutcome s := rfl

theorem mustShed_iff (s : State) (q : Quantity) :
    s.mustShed q = true ↔ shedDue s (s.adm.eff q) s.adm.newestAge q := by
  simp [State.mustShed, State.overloaded, State.outranksPeer, shedDue, and_assoc, or_assoc]

/-- The wash claim to shed is the one the statements name: it holds the quantity, and the other does not or
has an earlier commit (R121). -/
theorem shedChoice_eq (s : State) (q : Quantity) (c : Side)
    (hc : 0 < (s.claim (sideConsumer c)).committed.amount q)
    (ho : ∀ d, d ≠ c → 0 < (s.claim (sideConsumer d)).committed.amount q →
      ∃ m n, (s.claim (sideConsumer c)).commitTick = some m ∧
        (s.claim (sideConsumer d)).commitTick = some n ∧
        (s.adm.tick - m).toNat < (s.adm.tick - n).toNat) :
    s.adm.shedChoice q = some c := by
  cases c
  · have h := ho .b (by decide)
    simp only [State.claim, sideConsumer] at hc h
    by_cases hb : 0 < s.adm.claimB.committed.amount q
    · obtain ⟨m, n, hm, hn, hlt⟩ := h hb
      have : ¬(s.adm.sinceCommit s.adm.claimB < s.adm.sinceCommit s.adm.claimA) := by
        simp only [Admission.sinceCommit, hm, hn]; omega
      simp [Admission.shedChoice, hc, hb, this]
    · simp [Admission.shedChoice, hc, hb]
  · have h := ho .a (by decide)
    simp only [State.claim, sideConsumer] at hc h
    by_cases ha : 0 < s.adm.claimA.committed.amount q
    · obtain ⟨m, n, hm, hn, hlt⟩ := h ha
      have : s.adm.sinceCommit s.adm.claimB < s.adm.sinceCommit s.adm.claimA := by
        simp only [Admission.sinceCommit, hm, hn]; omega
      simp [Admission.shedChoice, hc, ha, this]
    · simp [Admission.shedChoice, hc, ha]

/-- What an evaluation decides, in the statements' words (R119 to R121). -/
theorem shedDecision_eq (s : State) (c : Side) (q : Quantity)
    (h : shedsNow s s.adm.eff s.adm.newestAge s.adm.tick c q) : s.shedDecision = some (c, q) := by
  obtain ⟨hd, hq, hc, ho⟩ := h
  have he := shedChoice_eq s q c hc ho
  have hm := (mustShed_iff s q).2 hd
  rcases hq with rfl | ⟨rfl, hn⟩
  · simp [State.shedDecision, hm, he]
  · have : s.mustShed .heat = false := by
      rw [← Bool.not_eq_true, mustShed_iff]; exact hn
    simp [State.shedDecision, this, hm, he]

theorem shedDecision_none (s : State) (h : noShed s s.adm.eff s.adm.newestAge) :
    s.shedDecision = none := by
  have h1 : s.mustShed .heat = false := by rw [← Bool.not_eq_true, mustShed_iff]; exact h.1
  have h2 : s.mustShed .flow = false := by rw [← Bool.not_eq_true, mustShed_iff]; exact h.2
  simp [State.shedDecision, h1, h2]

end Sys2Proof.Machine
end

