-- ==== Sys2Proof/WellFormed.lean ====
section
/-!
DEFINITION. When a row with its operands is one the outside can give: what a request's bytes, the bit
of a frame, an edge's distance and a station's address can be. A meaning is total; this names the
operands that occur.
-/

namespace Sys2Proof

/-- The bytes of an exchange: no body byte comes before the length byte (R185). -/
def Request.wf (r : Request) : Bool := r.len.isSome || r.data.isEmpty

/-- A level change comes at a later sample than the last one taken. -/
def FrameEnd.wf : FrameEnd → Bool
  | .unchanged => true
  | .phaseError n => decide (1 ≤ n)

/-- The longest frame on the line, in bits: 184 and 33 inserted zeros (R148). -/
def longestFrame : Nat := 217

/-- Well-formed rows. -/
def Instr.wf : Instr → Bool
  | .nop r => r.wf
  | .status r => r.wf
  | .configure r => r.wf
  | .writeWeights r => r.wf
  | .writeRecipe r => r.wf
  | .writeMatrix r => r.wf
  | .go _ r => r.wf
  | .loadJob r => r.wf
  | .cancelStaged r => r.wf
  | .position r => r.wf
  | .abortComp r => r.wf
  | .abortJob r => r.wf
  | .readJob r => r.wf
  | .readPeers r => r.wf
  | .safeStop r => r.wf
  | .resume r => r.wf
  | .readEvent r => r.wf
  | .readCert r => r.wf
  | .removeCert r => r.wf
  | .readSnapshot r => r.wf
  | .getTrail r => r.wf
  | .setTrail r => r.wf
  | .reset r => r.wf
  | .unknownCommand r =>
    match r with
    | some q => q.wf
    | none => true
  | .exchangeStart => true
  | .preparationDone => true
  | .powerOnReset => true
  | .estopAsserted => true
  | .pfwAsserted => true
  | .pfwDeasserted => true
  | .derateAsserted => true
  | .derateDeasserted => true
  | .connAsserted _ => true
  | .connDeasserted _ => true
  | .highAsserted _ _ => true
  | .delivAsserted _ => true
  | .delivDeasserted _ => true
  | .sumpEmptyAsserted => true
  | .sumpEmptyDeasserted => true
  | .flowMeterPulse _ => true
  | .spinnerPulse _ => true
  | .fillMeterPulse => true
  | .probeSample _ _ => true
  | .dropWaitExpiry _ => true
  | .stepSecond _ => true
  | .drainStepSecond _ => true
  | .inspectStepSecond _ => true
  | .sumpTimerExpiry _ => true
  | .stallMonitorExpiry _ => true
  | .stallLimitExpiry _ => true
  | .runOutExpiry _ => true
  | .skidTimerExpiry => true
  | .noFlowExpiry => true
  | .fillRunOutExpiry => true
  | .announcementTick => true
  | .settleWindowExpiry => true
  | .listenTimerExpiry => true
  | .peerAgeStale a => decide (a ≠ 0)
  | .peerAgeGone a => decide (a ≠ 0)
  | .leaveTimerExpiry => true
  | .announceReceived _ => true
  | .leaveReceived _ => true
  | .rollCallReceived _ _ => true
  | .frameDiscard e => e.wf
  | .attemptStart => true
  | .lostArbitration k => decide (k < longestFrame)
  | .bitError k => decide (k < longestFrame)
  | .frameSent => true
  | .estopDeasserted => true
  | .ylsEdge n => decide (1 ≤ n)
  | .clockUnlocked => true
  | .frameOpened => true
  | .lineFree => true
  | .lineBusy => true

end Sys2Proof
end

