-- ==== Sys2Proof/Tests/Slice0.lean ====
section
/-!
SUPPORT. Tests: the refusals of WellFormed, values the manual works out, and for every statement with
hypotheses a concrete state that meets them.
-/

namespace Sys2Proof.Tests

open Sys2Proof Sys2Proof.Machine Sys2Proof.Safety

/-! ### WellFormed -/

theorem test_wf_request_without_length : (Instr.nop ⟨none, [1]⟩).wf = false := by decide
theorem test_wf_request_command_byte_alone : (Instr.nop ⟨none, []⟩).wf = true := by decide
theorem test_wf_unknown_without_length : (Instr.unknownCommand (some ⟨none, [1]⟩)).wf = false := by
  decide
theorem test_wf_phase_error_at_once :
    (Instr.frameDiscard (.phaseError 0)).wf = false ∧ (Instr.frameDiscard .unchanged).wf = true := by
  decide
theorem test_wf_lost_beyond_frame : (Instr.lostArbitration 217).wf = false := by decide
theorem test_wf_bit_error_beyond_frame : (Instr.bitError 217).wf = false := by decide
theorem test_wf_edge_at_once : (Instr.ylsEdge 0).wf = false := by decide
theorem test_wf_age_of_no_station :
    (Instr.peerAgeStale 0).wf = false ∧ (Instr.peerAgeGone 0).wf = false := by decide

/-! ### States -/

/-- A configuration inside every range, T_a 250 ms, run-out 1 s. -/
def cfg0 : Configuration :=
  ⟨7, 0, 250, 1000, 500, 400, 50, 50, 10, 10, 1, 1, 500, 5, 1, 5, 2, 1, 1, 1, 1, 2, 1⟩

def rinse0 : Step := ⟨.rinse, .water, 0, 100, 50, 0, 2, 20, 1, 0, 0, 0, 0⟩
def wash0 : Step := ⟨.wash, .detergent, 600, 200, 60, 0, 1, 30, 0, 0, 0, 0, 0⟩
def drain0 : Step := ⟨.drain, .none, 0, 0, 100, 0, 0, 2, 0, 0, 0, 0, 0⟩
def inspect0 : Step := ⟨.inspect, .water, 0, 120, 30, 0, 6, 0, 1, 0, 0, 100, 100⟩
def recipe0 : Recipe := ⟨1, 1, 0, [rinse0, wash0, drain0, inspect0]⟩

/-- Recipe 0 in slot 0, for the change from class 1 to class 0; NONE for class 1 to class 1. -/
def store0 : RecipeStore where
  recipes := some recipe0 :: List.replicate 15 none
  matrix :=
    [List.replicate 16 .forbidden, [.recipe 0, .noRecipe] ++ List.replicate 14 .forbidden] ++
      List.replicate 14 (List.replicate 16 .forbidden)
  curves := List.replicate 4 (List.replicate 16 200)

/-- The bay in a state, configured, with station address 3 and an exchange in progress. -/
def bayIn (b : BayState) : State :=
  { State.reset with
    bay := b
    config := some cfg0
    ownAddr := some 3
    store := store0
    adm := Admission.reset.withCapacities cfg0 false
    port := ⟨.answering, false, ⟨.ok, []⟩, none⟩ }

def loaded1 : LoadedComp := ⟨1, 0, 1, 1, 100, .recipe 0⟩
def loaded2 : LoadedComp := ⟨1, 0, 5, 0, 0, .recipe 0⟩
def loadedNone : LoadedComp := ⟨0, 0, 0, 0, 0, .absent⟩

/-- Compartment 1 in a state with an owner, compartment 2 waiting to be filled. -/
def jobWith (st : CompState) (owner : Option Consumer) : ActiveJob :=
  ⟨9, true, [{ Comp.promoted loaded1 with state := st, owner := owner, washedBy := some .a },
    { Comp.promoted loaded2 with state := .fillWait }]⟩

/-- Circuit A in a state at step `n` of compartment 1. -/
def circAt (st : CircuitState) (n : Nat) : Circuit :=
  { Circuit.reset 1 with
    state := st, comp := 1, step := n, entered := true, stepSecond := some 0
    stallMonitor := some 0 }

/-- Circuit A washing compartment 1 in LIVE. -/
def washingAt (st : CircuitState) (n : Nat) : State :=
  { bayIn .live with
    jobs := ⟨none, some (jobWith .washing (some .a)), .none, .none⟩
    circA := circAt st n
    pins := { State.reset.pins with conn := 1 } }

/-- The fill controller in a state, filling compartment 1 on line 1 in LIVE. -/
def fillingAt (st : FillState) : State :=
  { bayIn .live with
    jobs := ⟨none, some (jobWith .filling (some .fill)), .none, .none⟩
    pins := { State.reset.pins with conn := 1 }
    fill :=
      { FillController.reset ⟨41, 0, 0, 0⟩ 1 with
        state := st
        comp := 1
        line := 1
        preset := 100
        started := true
        flowed := true } }

/-- LIVE, compartment 1 waiting for drop 1 under circuit A. -/
def waitingForDrop : State :=
  { bayIn .live with
    jobs := ⟨none, some (jobWith .waitDrop (some .a)), .none, .none⟩
    circA := { Circuit.reset 1 with state := .waitDrop, comp := 1, dropWait := some 2000 } }

/-- LIVE, compartment 1 waiting for drop 1 under the fill controller. -/
def fillWaiting : State :=
  { bayIn .live with
    jobs := ⟨none, some (jobWith .waitDrop (some .fill)), .none, .none⟩
    fill :=
      { FillController.reset ⟨0, 0, 0, 0⟩ 1 with
        state := .waitDrop, comp := 1, line := 1, preset := 100, dropWait := some 0 } }

/-- An announcement of station 2 with everything at 0. -/
def report2 : StationReport := ⟨2, 1, false, false, false, 7, 0, 0, 0, 0, 0, 0, 0, 0, 0, 0⟩

/-- The entry of a station, heard at 0. -/
def peerOf (a : BitVec 4) : Peer :=
  ⟨a, false, 0, 1, false, false, false, 7, false, false, 0, 0, 0, 0, 0, 0, 0, 0, 0, 255⟩

/-! ### Values the manual gives -/

/-- R56: the mean of two close readings, the lower of two apart, none of two far apart. -/
theorem test_reconcile :
    reconcile 70 73 = (.agree, 71) ∧ reconcile 70 82 = (.corrected, 70) ∧
      reconcile 70 83 = (.failed, 255) ∧ reconcile 241 70 = (.corrected, 70) := by decide

/-- R190: 1234 ms lies between steps of 50 ms and is brought to 1200. -/
theorem test_period_to_step : (Configuration.clamped { cfg0 with period := 1234 }).period = 1200 := by
  decide

/-- R148: the address decides an arbitration between two ANNOUNCEs, high bit first. -/
theorem test_arbitration_order :
    (contentBits [0x13]).take 5 = [false, false, false, true, false] ∧
      (contentBits [0x19]).take 5 = [false, false, false, true, true] := by decide

/-- R148: a 0 follows every run of five 1s; R150: the framer takes it out again, and closes the frame. -/
theorem test_zero_inserted :
    insertZeros 0 (List.replicate 6 true) = [true, true, true, true, true, false, true] ∧
      ((LineUnit.reset.framer.opened false).takeAll false
        ([true, true, true, true, true, false, true] ++ flagBits)).2.getLast? =
        some (.closed (List.replicate 6 true)) := by decide

/-- R150: a flag after fewer than seven 1s opens no frame; the seventh 1 in a frame aborts it. -/
theorem test_framer_opens_and_aborts :
    (({ LineUnit.reset.framer with ones := 6 }).takeAll false flagBits).1.inFrame = false ∧
      ((LineUnit.reset.framer.opened false).takeAll false (List.replicate 7 true)).2.getLast? =
        some .aborted := by decide

/-- R185: SDO gives the status first, its high bit first. -/
theorem test_sdo_high_bit_first :
    { State.reset with port := { Port.reset with shiftOut := some ⟨.badArg, [128]⟩ } }.sdo 16 = true ∧
      { State.reset with port := { Port.reset with shiftOut := some ⟨.badArg, [128]⟩ } }.sdo 15 =
        true := by decide

/-- R166: a record with no entries is 16 bytes long. -/
theorem test_empty_record_length : (certBytes 9 1 (Comp.promoted loadedNone)).length = 16 := by decide

/-- R107: an own age wraps with the tick count and stays at 255. -/
theorem test_age_wraps : tickAge 1 0xFFFFFFFE = 3 ∧ tickAge 1000 0 = 255 := by decide

/-- R128: station 3 at T_a 250 ms has its slot at 46 ms. -/
theorem test_slot_offset : (bayIn .listen).slotOffset = 46 := by decide

/-- R110: no row gives the words any bits. -/
theorem test_no_word_spells_a_command : decodeTableWord 8 0x41 = none := by decide

/-! ### One step -/

/-- What a row leaves in a state, when it gives a next one. -/
def after (i : Instr) (s : State) : State :=
  match exec i s with
  | .next t => t
  | .fault _ => s
  | .refused _ => s

theorem test_estop_stops_outputs :
    (after .estopAsserted (washingAt .running 1)).bay = .safe ∧
      (washingAt .running 1).supplyOpen .a = true ∧
      (after .estopAsserted (washingAt .running 1)).supplyOpen .a = false := by decide

theorem test_drain_second_ends :
    (after (.drainStepSecond .a)
      { washingAt .running 3 with circA := { circAt .running 3 with rcd := ⟨1, 0, 0, 255, 255, 0, 0, 0, 0⟩ } }).circA.step
      = 4 := by decide

theorem test_spinner_pulse_counts :
    (after (.spinnerPulse .a) (washingAt .running 1)).circA.rcd.pulses = 1 ∧
      (after (.spinnerPulse .b) (washingAt .running 1)).circB.rcd.pulses = 0 := by decide

theorem test_fill_closes_at_point :
    (after .fillMeterPulse
      { fillingAt .flowing with
        fill := { (fillingAt .flowing).fill with pulses := 58, closePoint := 59 } }).fill.state =
      .closing := by decide

theorem test_skid_answers :
    (after (.delivAsserted .l1) (fillingAt .awaitSkid)).fill.closePoint = 59 ∧
      (after (.delivAsserted .l2) (fillingAt .awaitSkid)).fill.state = .awaitSkid := by decide

theorem test_drop_loss_runs_out :
    (after (.connDeasserted .d1) (washingAt .running 1)).circA.state = .runOut ∧
      (after (.connDeasserted .d2) (washingAt .running 1)).circA.state = .running := by decide

theorem test_own_address_clashes :
    (after (.announceReceived { report2 with address := 3 }) (bayIn .live)).safety.causes.clash =
      true := by decide

theorem test_announce_joins :
    (after (.announceReceived report2) (bayIn .live)).peers.map (fun p => p.address) = [2] := by decide

theorem test_leave_timer_ends_reset :
    (after .leaveTimerExpiry { bayIn .resetting with leaveTimer := some 0 }).bay = .setup := by decide

theorem test_listen_ends :
    (after .listenTimerExpiry
      { bayIn .listen with adm := { Admission.reset with listen := some 0 } }).bay = .live := by decide

theorem test_early_edge_shortens :
    (after (.ylsEdge 1)
      { bayIn .live with
        line :=
          { LineUnit.reset with
            phaseShift := true
            clock := ⟨true, 12, 0, false, false, false, 17⟩ } }).line.clock.shorten = true := by decide

/-! ### Hypotheses that are met -/

theorem witness_StepRunsQueueFront :
    { State.reset with pending := [.lineBusy] }.pending = .lineBusy :: [] := by decide

theorem witness_EmptyQueueStepsTime :
    State.reset.pending = [] ∧ State.reset.due = [] ∧
      { State.reset with port := { Port.reset with preparing := true } }.due = [.preparationDone] ∧
      inYard (bayIn .live) ∧ ¬inYard State.reset := by
  refine ⟨rfl, rfl, rfl, .inr (.inl rfl), ?_⟩
  rintro (h | h | h) <;> cases h

theorem witness_PortExchanges :
    requestIn (.nop (requestOf [])) = some (requestOf []) ∧ State.reset.port.exchange = .none ∧
      State.reset.pins.resetn = false ∧ State.reset.port.preparing = false ∧
      (Port.mk .none true ⟨.ok, []⟩ none).preparing = true ∧
      (Port.mk .notReady false ⟨.ok, []⟩ (some ⟨.notReady, []⟩)).exchange = .notReady ∧
      (Port.mk .notTaken false ⟨.ok, []⟩ none).exchange = .notTaken ∧
      (after .exchangeStart State.reset).port.shiftOut = some ⟨.ok, []⟩ ∧
      (after .exchangeStart State.reset).pins.resetn = false ∧ 7 < 8 ∧ 8 ≤ 8 ∧ 15 < 16 ∧
      16 = 16 + 8 * 0 + 0 ∧ State.reset.port.shiftOut = none := by decide

theorem witness_RequestsChecked :
    requestIn (.resume (requestOf [])) = some (requestOf []) ∧ inExchange (bayIn .resetting) ∧
      (bayIn .resetting).bay = .resetting ∧ (bayIn .live).bay ≠ .resetting ∧
      (Request.mk none []).len = none ∧ [1].length < (2 : Byte).toNat ∧
      (251 : Byte).toNat ≤ (List.replicate 251 (0 : Byte)).length ∧ 250 < (251 : Byte).toNat ∧
      (250 : Byte).toNat ≤ 250 ∧ executedIn (.resume (requestOf [])) (bayIn .live).bay = false := by
  refine ⟨rfl, rfl, rfl, ?_, rfl, ?_, ?_, ?_, ?_, ?_⟩
  · decide
  · decide
  · rw [List.length_replicate]; decide
  all_goals decide

theorem witness_requests_of_bodies :
    bodyFits (List.replicate 250 0) ∧ inExchange (bayIn .live) ∧ inYard (bayIn .live) ∧
      inYard (bayIn .safe) ∧ inYard (bayIn .listen) ∧ (bayIn .setup).bay ≠ .resetting := by
  refine ⟨?_, rfl, .inr (.inl rfl), .inr (.inr rfl), .inl rfl, ?_⟩
  · exact Nat.le_of_eq List.length_replicate
  · decide

theorem witness_UnknownCommandAnswered :
    bodyFits [] ∧ inExchange (bayIn .live) ∧ (bayIn .live).bay ≠ .resetting ∧
      inExchange (bayIn .resetting) ∧ (bayIn .resetting).bay = .resetting := by
  refine ⟨Nat.zero_le _, rfl, ?_, rfl, rfl⟩; decide

theorem witness_NopAndStatusAnswer :
    bodyFits [] ∧ inExchange (bayIn .setup) ∧ (bayIn .setup).bay ≠ .resetting := by
  refine ⟨Nat.zero_le _, rfl, ?_⟩; decide

theorem witness_ReadJobReadsOnly :
    bodyFits [] ∧ inExchange (washingAt .running 1) ∧ inYard (washingAt .running 1) ∧
      (washingAt .running 1).jobs.active = some (jobWith .washing (some .a)) ∧
      (washingAt .running 1).jobs.staged = none ∧ (bayIn .live).jobs.active = none ∧
      { bayIn .safe with jobs := ⟨some ⟨9, true, [loaded1]⟩, none, .none, .none⟩ }.jobs.staged =
        some ⟨9, true, [loaded1]⟩ ∧
      (washingAt .running 1).comp? (0 + 1) =
        some { Comp.promoted loaded1 with state := .washing, owner := some .a, washedBy := some .a } ∧
      (washingAt .running 1).comp? (5 + 1) = none ∧ loaded1.stored = .recipe 0 ∧
      loadedNone.stored = .absent := by
  refine ⟨Nat.zero_le _, rfl, .inr (.inl rfl), rfl, rfl, rfl, rfl, rfl, rfl, rfl, rfl⟩

theorem witness_ReadPeersByIndex :
    inExchange { bayIn .live with peers := [peerOf 2] } ∧
      inYard { bayIn .live with peers := [peerOf 2] } ∧
      { bayIn .live with peers := [peerOf 2] }.peers[(0 : Byte).toNat]? = some (peerOf 2) ∧
      { bayIn .live with peers := [peerOf 2] }.peers[(1 : Byte).toNat]? = none ∧
      inExchange (bayIn .resetting) ∧ (bayIn .resetting).bay = .resetting ∧
      inExchange (bayIn .setup) ∧ (bayIn .setup).bay = .setup ∧
      bodyFits [1, 2] ∧ [1, 2].length ≠ 1 := by
  refine ⟨rfl, .inr (.inl rfl), rfl, rfl, rfl, rfl, rfl, rfl, ?_, ?_⟩ <;> simp [bodyFits]

theorem witness_booksRight_of_ReadPeersByIndex :
    inExchange (bayIn .live) ∧ booksRight (bayIn .live) := by
  refine ⟨rfl, ?_, ?_, ?_, ?_, ?_, ?_⟩
  · unfold overrideRight; decide
  · unfold causesRight; decide
  · unfold eventsBounded; decide
  · unfold lineHealthy; decide
  · unfold trailsBounded; decide
  · unfold peersRight; decide

theorem witness_ReadEventTakesOldest :
    bodyFits [] ∧ inExchange (bayIn .live) ∧ (bayIn .live).bay ≠ .resetting ∧
      (bayIn .live).pins.resetn = false ∧ inYard (bayIn .live) ∧
      (bayIn .live).events.records = [] ∧
      { bayIn .live with events := ⟨[⟨.safeLeft, false, 0, 0, 0, 0⟩], false⟩ }.events.records =
        ⟨.safeLeft, false, 0, 0, 0, 0⟩ :: [] ∧
      inExchange (bayIn .resetting) ∧ (bayIn .resetting).bay = .resetting := by
  refine ⟨Nat.zero_le _, rfl, ?_, rfl, .inr (.inl rfl), rfl, rfl, rfl, rfl⟩; decide

theorem witness_CertsReadAndRemoved :
    bodyFits [] ∧ inExchange (bayIn .live) ∧ (bayIn .live).bay ≠ .resetting ∧
      ([] : List Byte).length ≠ 2 ∧ (0 : Byte) = 0 ∧ (1 : Byte) ≠ 0 ∧
      (bayIn .live).certs.records = [] ∧ (bayIn .live).jobs.staged = none ∧
      { bayIn .live with certs := ⟨[[1, 2]], 0, 0⟩ }.certs.records = [1, 2] :: [] ∧
      inExchange (bayIn .resetting) ∧ (bayIn .resetting).bay = .resetting ∧
      (bayIn .live).jobs.active = none ∧ (CertQueue.mk [] 0 0).fits 1 = true ∧
      (CertQueue.mk [] 24 0).fits 1 = false := by
  refine ⟨Nat.zero_le _, rfl, ?_, ?_, rfl, ?_, rfl, rfl, rfl, rfl, rfl, rfl, ?_, ?_⟩ <;> decide

theorem witness_SnapshotRead :
    bodyFits [] ∧ inExchange (bayIn .resetting) ∧ (bayIn .resetting).bay = .resetting ∧
      inExchange (bayIn .safe) ∧ (bayIn .safe).bay ≠ .resetting ∧
      (bayIn .safe).safety.snapshot = none ∧
      (after .estopAsserted (bayIn .live)).safety.snapshot = some ((bayIn .live).snapshot .estop) := by
  refine ⟨Nat.zero_le _, rfl, rfl, rfl, ?_, rfl, ?_⟩ <;> decide

theorem witness_TrailsReadAndWritten :
    bodyFits [] ∧ inExchange (bayIn .live) ∧ (bayIn .live).bay ≠ .resetting ∧
      ([] : List Byte).length ≠ 3 ∧ ¬(1 ≤ (0 : Byte).toNat ∧ (0 : Byte).toNat ≤ 4) ∧
      ¬(1 ≤ (5 : Byte).toNat ∧ (5 : Byte).toNat ≤ 4) ∧ 1 ≤ (4 : Byte).toNat ∧ (4 : Byte).toNat ≤ 4 := by
  refine ⟨Nat.zero_le _, rfl, ?_, ?_, ?_, ?_, ?_, ?_⟩ <;> decide

theorem witness_ConfigureStoresInRange :
    bodyFits cfg0.bytes ∧ inExchange (bayIn .setup) ∧ (bayIn .setup).bay = .setup ∧
      cfg0.bytes.length = 30 ∧ ([] : List Byte).length ≠ 30 := by
  refine ⟨?_, rfl, rfl, rfl, ?_⟩
  · show cfg0.bytes.length ≤ 250; decide
  · decide

theorem witness_WeightsAndMatrixWritten :
    bodyFits (List.replicate 17 0) ∧ inExchange (bayIn .setup) ∧ (bayIn .setup).bay = .setup ∧
      (List.replicate 17 (0 : Byte)).length = 17 ∧ byteAt (List.replicate 17 0) 0 ≤ 3 ∧
      3 < byteAt (4 :: List.replicate 16 0) 0 ∧ 15 < byteAt (16 :: List.replicate 16 0) 0 ∧
      matrixOfCode (byteAt (0 :: 16 :: List.replicate 15 0) 1) = none ∧
      ((List.replicate 17 (0 : Byte)).drop 1).map (fun x => matrixOfCode x.toNat) =
        (List.replicate 16 (MatrixEntry.recipe 0)).map some ∧
      inExchange (bayIn .resetting) ∧ (bayIn .resetting).bay = .resetting ∧
      inExchange (bayIn .live) ∧ inYard (bayIn .live) := by
  refine ⟨?_, rfl, rfl, rfl, ?_, ?_, ?_, ?_, rfl, rfl, rfl, rfl, .inr (.inl rfl)⟩
  · show (List.replicate 17 (0 : Byte)).length ≤ 250; decide
  all_goals decide

/-- A WRITE_RECIPE body for slot 0: a RINSE of kind code `kind`, then an INSPECT; a repeat index and a retry
limit. -/
def recipeBody (kind index retries : Byte) : List Byte :=
  [0, 2, index, retries, 20, 0] ++
    [kind, 1, 0, 0, 100, 0, 50, 0, 0, 0, 2, 0, 20, 0, 1, 0, 0, 0, 0, 0, 0, 0, 0] ++
    [5, 1, 0, 0, 120, 0, 30, 0, 0, 0, 6, 0, 0, 0, 1, 0, 0, 0, 0, 100, 0, 100, 0]

theorem witness_RecipeWrittenWhole :
    bodyFits (recipeBody 1 1 1) ∧ inExchange (bayIn .setup) ∧ (bayIn .setup).bay = .setup ∧
      [(0 : Byte)].length < 2 ∧ 15 < byteAt [16, 1] 0 ∧ byteAt [15, 0] 1 = 0 ∧
      8 < byteAt [15, 9] 1 ∧ [(0 : Byte), 8].length ≠ 6 + 23 * byteAt [0, 8] 1 ∧
      recipeHeaderRight (recipeBody 1 1 4) ∧ 3 < byteAt (recipeBody 1 1 4) 3 ∧
      recipeHeaderRight (recipeBody 0 1 3) ∧ byteAt (recipeBody 0 1 3) 3 ≤ 3 ∧
      stepFault (recipeBody 0 1 3) 0 = some 5 ∧
      recipeHeaderRight (recipeBody 1 2 1) ∧ 1 ≤ byteAt (recipeBody 1 2 1) 3 ∧
      byteAt (recipeBody 1 2 1) 1 ≤ byteAt (recipeBody 1 2 1) 2 ∧
      recipeHeaderRight (recipeBody 1 1 1) ∧ 1 ≤ byteAt (recipeBody 1 1 1) 3 ∧
      1 ≤ byteAt (recipeBody 1 1 1) 2 ∧ byteAt (recipeBody 1 1 1) 2 < byteAt (recipeBody 1 1 1) 1 ∧
      ∀ m, m < 2 → stepFault (recipeBody 1 1 1) m = none ∧ stepFault (recipeBody 1 2 1) m = none := by
  refine ⟨?_, rfl, rfl, ?_⟩
  · show (recipeBody 1 1 1).length ≤ 250; decide
  · unfold recipeHeaderRight; decide

/-- R30: the RINSE and INSPECT body is accepted, its steps stored as sent. -/
theorem test_recipe_accepted :
    ((after (.writeRecipe (requestOf (recipeBody 1 1 1))) (bayIn .setup)).store.recipe? 0).map
        (fun r => (r.steps, r.repeatIndex, r.retryLimit, r.coverageMin)) =
      some ([rinse0, ⟨.inspect, .water, 0, 120, 30, 0, 6, 0, 1, 0, 0, 100, 100⟩], 1, 1, 20) := by
  decide

theorem witness_GoChecksAndStarts :
    bodyFits [] ∧ inExchange (bayIn .setup) ∧ (bayIn .setup).bay = .setup ∧
      { bayIn .setup with config := none }.config = none ∧ (bayIn .setup).config = some cfg0 ∧
      (0 : BitVec 4) = 0 ∧ (1 : BitVec 4) ≠ 0 ∧
      (bayIn .setup).store.recipes[0]? = some (some recipe0) ∧ recipe0.steps[1]? = some wash0 ∧
      { cfg0 with capHeat := 599 }.capHeat < wash0.heat ∧
      (rinse0.heat ≤ 599 ∧ rinse0.flow ≤ cfg0.capFlow ∧ rinse0.drain ≤ cfg0.capDrain) ∧
      (bayIn .setup).pins.estop = false ∧ (bayIn .setup).pins.pfw = false ∧
      (after .pfwAsserted (bayIn .setup)).pins.pfw = true ∧
      (after .pfwAsserted (bayIn .setup)).bay = .setup ∧
      (bayIn .setup).safety.silence = .quiet ∧
      (∀ x, some x ∈ (bayIn .setup).store.recipes → ∀ st ∈ x.steps,
        st.heat ≤ cfg0.capHeat ∧ st.flow ≤ cfg0.capFlow ∧ st.drain ≤ cfg0.capDrain) := by
  refine ⟨Nat.zero_le _, rfl, rfl, rfl, rfl, rfl, ?_, rfl, rfl, ?_, ?_, rfl, rfl, rfl, rfl, rfl, ?_⟩
  · decide
  · decide
  · decide
  · intro x hx st hs
    have hr : x = recipe0 := by simpa [bayIn, store0] using hx
    subst hr
    simp only [recipe0, List.mem_cons, List.not_mem_nil, or_false] at hs
    rcases hs with rfl | rfl | rfl | rfl <;> decide

/-- A LOAD_JOB body of one compartment at drop 1, from class 1 to a class. -/
def jobBody (next : Byte) : List Byte := [9, 0, 0, 0, 1, 1, next, 1, 0, 0, 0]

/-- R7's example: FORBIDDEN at (7, 2), recipe 3 at (1, 1); compartment 3 shares drop 2 with compartment 1, and,
moved to drop 5, asks for the FORBIDDEN change. -/
def store7 : RecipeStore where
  recipes := [none, none, none, some recipe0] ++ List.replicate 12 none
  matrix := [[], [.forbidden, .recipe 3], [], [], [], [], [], [.noRecipe, .recipe 4, .forbidden]]
  curves := []

def body7 (drop : Byte) : List Byte :=
  [9, 0, 0, 0, 3, 1, 1, 2, 0, 0, 0, 7, 2, 0, 0, 0, 0, 7, 2, drop, 1, 0x88, 0x13]

theorem test_job_example :
    checkJob store7 (body7 2) = .error (3, 4) ∧ checkJob store7 (body7 5) = .error (3, 7) := ⟨rfl, rfl⟩

theorem witness_compFault :
    compFault store7 (body7 2) 0 = none ∧ compFault store7 (body7 2) 1 = none ∧
      compFault store7 (body7 2) 2 = some 4 ∧ compFault store7 (body7 5) 2 = some 7 ∧
      compFault store7 [9, 0, 0, 0, 1, 1, 16, 1, 0, 0, 0] 0 = some 3 ∧
      compFault store7 [9, 0, 0, 0, 1, 1, 1, 9, 0, 0, 0] 0 = some 4 ∧
      compFault store7 [9, 0, 0, 0, 1, 1, 1, 0, 4, 1, 0] 0 = some 5 ∧
      compFault store7 [9, 0, 0, 0, 1, 1, 1, 0, 5, 1, 0] 0 = some 6 ∧
      compFault store7 [9, 0, 0, 0, 1, 1, 1, 8, 1, 0x41, 0x9C] 0 = some 6 ∧
      compFault store7 [9, 0, 0, 0, 1, 1, 1, 8, 1, 0x40, 0x9C] 0 = none ∧
      compFault store7 [9, 0, 0, 0, 1, 7, 1, 8, 0, 0, 0] 0 = some 8 := by decide

theorem witness_LoadJobStagesOrPromotes :
    bodyFits (jobBody 0) ∧ inExchange (bayIn .live) ∧ inYard (bayIn .live) ∧
      { bayIn .live with
        jobs := ⟨some ⟨9, false, []⟩, none, .none, .none⟩ }.jobs.staged ≠ none ∧
      checkJob store0 [] = .error (0, 2) ∧ checkJob store0 (jobBody 2) = .error (1, 7) ∧
      checkJob store0 (jobBody 0) = .ok ⟨9, false, [⟨1, 0, 1, 0, 0, .recipe 0⟩]⟩ ∧
      (washingAt .running 1).jobs.active ≠ none ∧ (bayIn .live).jobs.active = none ∧
      (bayIn .live).certs.records.length + (bayIn .live).certs.reservedRecords + 1 ≤ 24 ∧
      24 < (CertQueue.mk (List.replicate 24 []) 0 0).records.length + 0 + 1 ∧
      ([] : List Byte).length < 5 ∧ 6 < byteAt [9, 0, 0, 0, 7] 4 ∧
      [9, 0, 0, 0, 1, (0 : Byte)].length ≠ 5 + 6 * byteAt [9, 0, 0, 0, 1, 0] 4 ∧
      jobHeaderRight (jobBody 2) ∧ compFault store0 (jobBody 2) 0 = some 7 ∧
      jobHeaderRight (jobBody 0) ∧
      (∀ m, m < byteAt (jobBody 0) 4 → compFault store0 (jobBody 0) m = none) ∧
      jobHeaderRight (body7 2) := by
  refine ⟨?_, rfl, .inr (.inl rfl), ?_, rfl, rfl, rfl, ?_, rfl, ?_, ?_, ?_, ?_, ?_, ?_, ?_, ?_, ?_, ?_⟩
  · show (jobBody 0).length ≤ 250; decide
  all_goals first | decide | (unfold jobHeaderRight; decide)

theorem witness_LoadedJobsAreSound :
    checkJob store0 (jobBody 1) = .ok ⟨9, false, [⟨1, 1, 1, 0, 0, .noRecipe⟩]⟩ := rfl

theorem witness_CancelStagedDiscards :
    bodyFits [] ∧ inExchange (bayIn .safe) ∧ inYard (bayIn .safe) ∧ (bayIn .safe).jobs.staged = none ∧
      { bayIn .safe with
        jobs := ⟨some ⟨9, true, [loaded1]⟩, none, .none, .none⟩ }.jobs.staged ≠ none ∧
      inExchange (bayIn .setup) ∧ (bayIn .setup).bay = .setup ∧ inExchange (bayIn .resetting) ∧
      (bayIn .resetting).bay = .resetting ∧ (bayIn .safe).jobs.active = none ∧
      (bayIn .safe).certs.fits 1 = true := by
  refine ⟨Nat.zero_le _, rfl, .inr (.inr rfl), rfl, ?_, rfl, rfl, rfl, rfl, rfl, ?_⟩ <;> decide

/-- The bay in LIVE with an active job awaiting its position. -/
def awaiting (cs : List LoadedComp) : State :=
  { bayIn .live with jobs := ⟨none, some ⟨9, false, cs.map Comp.promoted⟩, .none, .none⟩ }

/-- A compartment at drop 1 that asks for 100 litres of line 1 alone. -/
def loadedFill : LoadedComp := ⟨1, 1, 1, 1, 100, .noRecipe⟩

theorem witness_PositionRunsJob :
    bodyFits [] ∧ inExchange (bayIn .live) ∧ inYard (bayIn .live) ∧ (bayIn .live).jobs.active = none ∧
      (washingAt .running 1).jobs.active = some (jobWith .washing (some .a)) ∧
      (jobWith .washing (some .a)).running = true ∧
      (∀ c ∈ [loaded1, loaded2], ∃ r, c.stored = .recipe r) ∧
      (awaiting [loaded1, loaded2]).jobs.active =
        some ⟨9, false, [loaded1, loaded2].map Comp.promoted⟩ ∧
      ((awaiting [loaded1, loaded2]).circ .a).state = .idle ∧
      (awaiting [loaded1, loaded2]).fill.order = [] ∧
      nextQueued (awaiting [loaded1, loaded2]) .a 1 (Comp.promoted loaded1) ∧
      (awaiting [loaded1, loaded2]).conn loaded1.drop = false ∧
      nothingQueued (awaiting [loaded2]) .a ∧
      (∀ c ∈ [loadedFill], c.stored = .noRecipe ∧ c.fillLine ≠ 0) ∧
      (awaiting [loadedFill]).fill.state = .idle ∧
      (awaiting [loadedFill]).conn loadedFill.drop = false ∧
      (∀ c ∈ [loadedNone], c.stored = .absent) ∧ (awaiting [loadedNone]).jobs.staged = none := by
  refine ⟨Nat.zero_le _, rfl, .inr (.inl rfl), rfl, rfl, rfl, ?_, rfl, rfl, rfl, ?_, ?_, ?_, ?_, rfl,
    ?_, ?_, rfl⟩
  · intro c hc
    simp only [List.mem_cons, List.not_mem_nil, or_false] at hc
    rcases hc with rfl | rfl <;> exact ⟨0, rfl⟩
  · refine ⟨rfl, rfl, rfl, ?_⟩
    intro m q hm hq
    have h0 : m = 0 := by omega
    subst h0
    cases hq
  · decide
  · exact nothingQueued_of_all _ _ (by decide)
  · decide
  · decide
  · decide

/-- Compartment 2 of the job still has work to do. -/
theorem jobGoesOn_of_second (s : State) (c : Comp) (h : s.comp? 2 = some c)
    (ht : c.state.terminal = false) : jobGoesOn s 1 := ⟨2, c, h, by decide, ht⟩

theorem witness_AbortCompByState :
    bodyFits [1] ∧ inExchange (awaiting [loaded1, loaded2]) ∧ inYard (awaiting [loaded1, loaded2]) ∧
      [1, 2].length ≠ 1 ∧ (bayIn .live).jobs.active = none ∧ (0 : Byte).toNat = 0 ∧
      [loaded1, loaded2].length < (3 : Byte).toNat ∧
      (awaiting [loaded1, loaded2]).comp? (1 : Byte).toNat = some (Comp.promoted loaded1) ∧
      jobGoesOn (awaiting [loaded1, loaded2]) 1 ∧
      (washingAt .running 1).comp? 1 =
        some { Comp.promoted loaded1 with state := .washing, owner := some .a, washedBy := some .a } ∧
      ((washingAt .running 1).circ .a).comp = 1 ∧
      (washingAt .running 1).stepOf .a = some rinse0 ∧ (washingAt .running 1).circA.runOut = none ∧
      (washingAt .running 1).cfg.runOutTime ≠ 0 ∧ ((washingAt .running 1).circ .a).entered = true ∧
      (fillingAt .flowing).comp? 1 =
        some { Comp.promoted loaded1 with
          state := .filling, owner := some .fill, washedBy := some .a } ∧
      (fillingAt .flowing).fill.comp = 1 ∧
      waitingForDrop.comp? 1 =
        some { Comp.promoted loaded1 with
          state := .waitDrop, owner := some .a, washedBy := some .a } ∧
      (waitingForDrop.circ .a).comp = 1 ∧ jobGoesOn waitingForDrop 1 ∧
      nothingQueued waitingForDrop .a ∧
      fillWaiting.comp? 1 =
        some { Comp.promoted loaded1 with
          state := .waitDrop, owner := some .fill, washedBy := some .a } ∧
      fillWaiting.fill.comp = 1 ∧ fillWaiting.fill.started = false ∧ fillWaiting.fill.order = [] ∧
      jobGoesOn fillWaiting 1 := by
  refine ⟨?_, rfl, .inr (.inl rfl), ?_, rfl, rfl, ?_, rfl, ?_, rfl, rfl, rfl, rfl, ?_, rfl, rfl, rfl,
    rfl, rfl, ?_, ?_, rfl, rfl, rfl, rfl, ?_⟩
  · show [(1 : Byte)].length ≤ 250; decide
  · decide
  · decide
  · exact jobGoesOn_of_second _ _ rfl rfl
  · decide
  · exact jobGoesOn_of_second _ _ rfl rfl
  · exact nothingQueued_of_all _ _ (by decide)
  · exact jobGoesOn_of_second _ _ rfl rfl

theorem witness_AbortJobEndsQueuedJob :
    bodyFits [] ∧ inExchange (awaiting [loaded1]) ∧ inYard (awaiting [loaded1]) ∧
      (bayIn .live).jobs.active = none ∧
      (awaiting [loaded1]).jobs.active = some ⟨9, false, [loaded1].map Comp.promoted⟩ ∧
      (awaiting [loaded1]).jobs.staged = none :=
  ⟨Nat.zero_le _, rfl, .inr (.inl rfl), rfl, rfl, rfl⟩

/-- A compartment of a job of two is one of the two. -/
theorem comp_of_two (s : State) (j : ActiveJob) (c d : Comp) (hj : s.jobs.active = some j)
    (hc : j.comps = [c, d]) (i : Nat) (k : Comp) (h : s.comp? i = some k) :
    i = 1 ∧ k = c ∨ i = 2 ∧ k = d := by
  have e : s.comps = [c, d] := by simp [State.comps, hj, hc]
  match i, h with
  | 1, h => simp only [State.comp?, e] at h; cases h; exact .inl ⟨rfl, rfl⟩
  | 2, h => simp only [State.comp?, e] at h; cases h; exact .inr ⟨rfl, rfl⟩
  | n + 3, h => simp [State.comp?, e] at h

/-- Circuit A washing compartment 1, compartment 2 waiting to be filled: ABORT_JOB runs out. -/
theorem witness_AbortJobEndsQueuedJob_runs_out :
    (washingAt .running 1).jobs.active = some (jobWith .washing (some .a)) ∧
      (washingAt .running 1).jobs.staged = none ∧ ownersRight (washingAt .running 1) ∧
      (∃ i k, (washingAt .running 1).comp? i = some k ∧ k.state.terminal = false ∧
        abortEndsNow (washingAt .running 1) k = false) := by
  refine ⟨rfl, rfl, ⟨?_, by decide, by decide⟩, 1, _, rfl, by decide, by decide⟩
  intro i k h
  rcases comp_of_two _ (jobWith .washing (some .a)) _ _ rfl rfl i k h with ⟨rfl, rfl⟩ | ⟨rfl, rfl⟩
  · exact ⟨fun h => absurd h (by decide), fun _ => ⟨.a, rfl, rfl, by decide, rfl, .inl rfl⟩, fun h => absurd h (by decide)⟩
  · exact ⟨fun h => absurd h (by decide), fun h => absurd h (by decide), fun h => absurd h (by decide)⟩

/-- Compartment 1 waiting for its drop, compartment 2 for its fill: ABORT_JOB ends the job at once. -/
theorem witness_AbortJobEndsQueuedJob_at_once :
    ownersRight waitingForDrop ∧ waitingForDrop.jobs.staged = none ∧
      (∃ i k, waitingForDrop.comp? i = some k ∧ k.state.terminal = false) ∧
      (∀ i k, waitingForDrop.comp? i = some k → k.state.terminal = false →
        abortEndsNow waitingForDrop k = true) ∧
      (after (.abortJob (requestOf [])) waitingForDrop).jobs = ⟨none, none, .fail, .none⟩ := by
  refine ⟨⟨?_, by decide, by decide⟩, rfl, ⟨1, _, rfl, by decide⟩, ?_, by decide⟩
  · intro i k h
    rcases comp_of_two _ (jobWith .waitDrop (some .a)) _ _ rfl rfl i k h with ⟨rfl, rfl⟩ | ⟨rfl, rfl⟩
    · exact ⟨fun _ => .inl ⟨.a, rfl, rfl, rfl⟩, fun h => absurd h (by decide), fun h => absurd h (by decide)⟩
    · exact ⟨fun h => absurd h (by decide), fun h => absurd h (by decide), fun h => absurd h (by decide)⟩
  · intro i k h _
    rcases comp_of_two _ (jobWith .waitDrop (some .a)) _ _ rfl rfl i k h with ⟨rfl, rfl⟩ | ⟨rfl, rfl⟩ <;>
      decide

/-- R22: a fill aborted from AWAIT_SKID with nothing delivered records SHORT, with a tolerance above the
preset too; one interrupted with nothing delivered is decided on its volume. -/
theorem test_abort_from_await_skid :
    (cutOutcome { fillingAt .awaitSkid with config := some { cfg0 with fillTolerance := 100 } },
      cutOutcome { fillingAt .interrupted with config := some { cfg0 with fillTolerance := 100 } }) =
        (.short, .filled) ∧
      (((after (.abortComp (requestOf [1]))
        { fillingAt .awaitSkid with config := some { cfg0 with fillTolerance := 100 } }).comp? 1).bind
          fun k => k.fillEntry.map fun e => e.outcome) = some .short := by decide

theorem witness_CausesEnterSafe :
    notStopped (washingAt .running 1) ∧ notStopped (bayIn .listen) ∧
      (washingAt .running 1).pins.estop = false ∧ (washingAt .running 1).pins.pfw = false ∧
      bodyFits [] ∧ inExchange (washingAt .running 1) ∧
      (washingAt .running 1).events.records.length < 32 ∧
      (washingAt .running 1).safety.silence = .quiet ∧
      ((washingAt .admitting 1).circ .a).state = .admitting ∧
      ((washingAt .running 1).circ .b).state = .idle ∧ (fillingAt .flowing).fill.state = .flowing ∧
      notStopped (fillingAt .flowing) ∧ (fillingAt .closing).fill.state = .closing ∧
      { (fillingAt .closing).fill with closeKind := .high }.closeKind = .high ∧
      { (fillingAt .closing).fill with closeKind := .abort }.closeKind = .abort := by
  refine ⟨.inr rfl, .inl rfl, rfl, rfl, Nat.zero_le _, rfl, ?_, rfl, rfl, rfl, rfl, .inr rfl, rfl, rfl,
    rfl⟩
  decide

/-- R97: a fill caught in FLOWING is INTERRUPTED and its volume kept; R177: it is shown as FLOWING. -/
theorem test_safe_interrupts_fill :
    (after .estopAsserted (fillingAt .flowing)).fill.state = .interrupted ∧
      ((after .estopAsserted (fillingAt .flowing)).safety.snapshot.map fun n => n.fillState) =
        some .flowing := by decide

theorem witness_CausesJoinInSafe :
    (bayIn .setup).bay = .setup ∧ (bayIn .setup).pins.estop = false ∧
      (bayIn .setup).pins.pfw = false ∧ (bayIn .resetting).bay = .resetting ∧
      (bayIn .safe).bay = .safe ∧ (bayIn .safe).pins.estop = false ∧ (bayIn .safe).pins.pfw = false ∧
      (bayIn .safe).safety.silence = .quiet ∧ (bayIn .safe).safety.silence ≠ .silent ∧
      { bayIn .safe with safety := { SafeStop.reset with silence := .silent } }.safety.silence =
        .silent := by decide

theorem witness_ResumeLeavesSafe :
    bodyFits [] ∧ inExchange (bayIn .safe) ∧ (bayIn .safe).bay = .safe ∧
      (after .estopAsserted (bayIn .live)).pins.estop = true ∧ (bayIn .safe).pins.estop = false ∧
      (bayIn .safe).pins.pfw = false ∧ (bayIn .safe).safety.causes.clash = false ∧
      ((washingAt .paused 1).circ .a).state = .paused ∧
      ((washingAt .paused 1).claim (sideConsumer .a)).state = .idle ∧
      (washingAt .paused 1).stepOf .a = some rinse0 ∧
      ({ circAt .paused 1 with pause := some 1000 } : Circuit).pause = some 1000 ∧
      1000 ≤ rinse0.holdLimit * 1000 ∧ rinse0.holdLimit * 1000 < 1001 ∧
      ((bayIn .safe).circ .b).state ≠ .paused ∧ (bayIn .safe).fill.state ≠ .interrupted ∧
      (fillingAt .interrupted).fill.state = .interrupted ∧
      (fillingAt .interrupted).fill.comp = 1 ∧ (fillingAt .interrupted).comp? 1 ≠ none ∧
      { (fillingAt .interrupted).fill with closeKind := .high }.closeKind = .high ∧
      (fillingAt .interrupted).fill.preset ≤ 99 + (fillingAt .interrupted).cfg.fillTolerance ∧
      98 + (fillingAt .interrupted).cfg.fillTolerance < (fillingAt .interrupted).fill.preset ∧
      jobGoesOn (fillingAt .interrupted) 1 ∧ (fillingAt .interrupted).fill.order = [] ∧
      (fillingAt .interrupted).fill.started = true ∧
      (fillingAt .interrupted).fill.closeKind ≠ .high ∧ (fillingAt .interrupted).fill.line ≠ 0 ∧
      (fillingAt .interrupted).adm.claimFill = ⟨.zero, .zero, .idle, 0, false, none⟩ := by
  refine ⟨Nat.zero_le _, rfl, rfl, ?_, rfl, rfl, rfl, rfl, rfl, rfl, rfl, ?_, ?_, ?_, ?_, rfl, rfl, ?_,
    rfl, ?_, ?_, ?_, rfl, rfl, ?_, ?_, rfl⟩
  · decide
  · decide
  · decide
  · decide
  · decide
  · decide
  · decide
  · decide
  · exact jobGoesOn_of_second _ _ rfl rfl
  · decide
  · decide

theorem witness_ResetBegins :
    bodyFits [] ∧ inExchange (bayIn .setup) ∧ (bayIn .setup).bay = .setup ∧
      inExchange (washingAt .running 1) ∧ inYard (washingAt .running 1) ∧
      (washingAt .running 1).leaveTimer = none ∧
      (∀ content a b x, (washingAt .running 1).line.pendingFrame ≠ .leave content a b x) ∧
      (washingAt .running 1).jobs.active = some (jobWith .washing (some .a)) ∧
      (washingAt .running 1).comp? 1 ≠ none ∧ ((washingAt .running 1).circ .a).comp = 1 ∧
      ((washingAt .running 1).circ .b).comp ≠ 1 ∧ (washingAt .running 1).fill.comp ≠ 1 ∧
      (fillingAt .flowing).fill.comp = 1 ∧ (fillingAt .flowing).fill.started = true := by
  refine ⟨Nat.zero_le _, rfl, rfl, rfl, .inr (.inl rfl), rfl, ?_, rfl, ?_, rfl, ?_, ?_, rfl, rfl⟩
  · intro content a b x h
    cases h
  all_goals decide

/-- R27: the records of a soft reset name their compartments in order, ABORTED(RESET). -/
theorem test_reset_records :
    ((after (.reset (requestOf [])) (washingAt .running 1)).certs.records.map fun b =>
      (byteAt b 4, byteAt b (b.length - 4), byteAt b (b.length - 3))) =
        [1, 2].map fun i => (i, CompState.aborted.code, ResultCode.reset.code) := by decide

/-- RESETTING with the LEAVE of the soft reset being sent. -/
def leaving : State :=
  { bayIn .resetting with
    leaveTimer := some 0
    line :=
      { LineUnit.reset with
        attempt := some ⟨.leave, [3], 0⟩
        pendingFrame := .leave [3] false true true } }

theorem witness_SoftResetEnds :
    leaving.bay = .resetting ∧ leaving.leaveTimer ≠ none ∧
      leaving.line.attempt = some ⟨.leave, [3], 0⟩ ∧
      leaving.line.pendingFrame = .leave [3] false true true ∧ leaving.pins.derate = false ∧
      (after .derateAsserted leaving).pins.derate = true ∧
      (after .derateAsserted leaving).bay = .resetting ∧ (bayIn .live).bay ≠ .resetting ∧
      (bayIn .resetting).leaveTimer = none := by
  refine ⟨rfl, ?_, rfl, rfl, rfl, ?_, ?_, ?_, rfl⟩ <;> decide

theorem witness_PowerOnResets :
    (bayIn .live).port.exchange ≠ .none ∧ State.reset.port.exchange = .none ∧
      (assertResetn State.reset).pins.resetn = true ∧
      (assertResetn State.reset).port.exchange = .none ∧
      (assertResetn (bayIn .live)).port.exchange = .notTaken := by decide

/-- R197: RESETN asserted closes the supply valve of a circuit in RUN. -/
theorem test_resetn_holds_outputs :
    (washingAt .running 1).supplyOpen .a = true ∧
      (assertResetn (washingAt .running 1)).supplyOpen .a = false := by decide

theorem witness_RaisedEvents :
    inYard (bayIn .live) ∧ (bayIn .live).events.records.length < 32 ∧ ¬inYard (bayIn .setup) ∧
      32 ≤ (EventQueue.mk (List.replicate 32 ⟨.safeLeft, false, 0, 0, 0, 0⟩) false).records.length := by
  refine ⟨.inr (.inl rfl), ?_, ?_, ?_⟩
  · decide
  · rintro (h | h | h) <;> cases h
  · decide

/-- LIVE, circuit A running with 600 of heat committed, a peer that draws 500. -/
def overloadedBay : State :=
  { washingAt .running 2 with
    peers := [{ peerOf 2 with committedHeat := 500 }]
    adm :=
      { (bayIn .live).adm with
        claimA := ⟨wash0.draws, wash0.draws, .satisfied, 0, false, some 0⟩ } }

/-- Both circuits hold HEAT and FLOW, B committed last; the effective FLOW alone is exceeded with the heat
percentage at 100. -/
def bothHold (heatPercent : Nat) : State :=
  { overloadedBay with
    config := some { cfg0 with heatPercent := heatPercent }
    peers := [{ peerOf 2 with committedHeat := 200, committedFlow := 200 }]
    adm :=
      { (bayIn .live).adm with
        tick := 7
        claimA := ⟨wash0.draws, ⟨300, 100, 50, 0⟩, .satisfied, 0, false, some 4⟩
        claimB := ⟨wash0.draws, ⟨300, 100, 50, 0⟩, .satisfied, 0, false, some 6⟩ } }

/-- The effective capacities with DERATE asserted. -/
def deratedEff (s : State) : Quantity → Nat := (s.adm.withCapacities s.cfg true).eff

theorem shedsNow_overloaded :
    shedsNow overloadedBay (deratedEff overloadedBay) overloadedBay.adm.newestAge
      overloadedBay.adm.tick .a .heat := by
  refine ⟨?_, .inl rfl, by decide, ?_⟩
  · unfold shedDue; decide
  · intro d hd h; cases d
    · exact absurd rfl hd
    · exact absurd h (by decide)

theorem shedsNow_flow_alone :
    shedsNow (bothHold 100) (deratedEff (bothHold 100)) (bothHold 100).adm.newestAge
      (bothHold 100).adm.tick .b .flow := by
  refine ⟨?_, .inr ⟨rfl, ?_⟩, by decide, ?_⟩
  · unfold shedDue; decide
  · unfold shedDue; decide
  · intro d hd _; cases d
    · exact ⟨6, 4, rfl, rfl, by decide⟩
    · exact absurd rfl hd

theorem shedsNow_both_hold_heat :
    shedsNow (bothHold 50) (deratedEff (bothHold 50)) (bothHold 50).adm.newestAge
      (bothHold 50).adm.tick .b .heat := by
  refine ⟨?_, .inl rfl, by decide, ?_⟩
  · unfold shedDue; decide
  · intro d hd _; cases d
    · exact ⟨6, 4, rfl, rfl, by decide⟩
    · exact absurd rfl hd

theorem witness_DerateSwitchesCapacities :
    overloadedBay.pins.derate = false ∧ notStopped overloadedBay ∧ notStopped (bothHold 100) ∧
      (after .derateAsserted overloadedBay).adm.eff = deratedEff overloadedBay ∧
      noShed (bayIn .live) (deratedEff (bayIn .live)) (bayIn .live).adm.newestAge ∧
      ¬notStopped (bayIn .safe) ∧ (after .derateAsserted (bayIn .live)).pins.derate = true ∧
      overloadedBay.events.records.length + 2 ≤ 32 := by
  refine ⟨rfl, .inr rfl, .inr rfl, ?_, ?_, ?_, ?_, ?_⟩
  · funext q; cases q <;> decide
  · unfold noShed shedDue; decide
  · rintro (h | h) <;> cases h
  · decide
  · decide

/-- R121: the later commit is shed, and CLAIM_SHED names B, FLOW and its compartment. -/
theorem test_shed_later_commit :
    ((after .derateAsserted (bothHold 100)).claim .b).shed = true ∧
      ((after .derateAsserted (bothHold 100)).claim .a).shed = false ∧
      ((after .derateAsserted (bothHold 100)).events.records.map fun e => (e.kind, e.d0, e.d1, e.d2)) =
        [(.derateOn, 100, 50, 0), (.claimShed, 2, 2, 0)] := by decide

theorem witness_ConnectionStartsStep :
    waitingForDrop.conn Drop.d1.num = false ∧
      waitingForDrop.comp? 1 =
        some { Comp.promoted loaded1 with
          state := .waitDrop, owner := some .a, washedBy := some .a } ∧
      waitingForDrop.compAtDrop Drop.d1.num = some 1 ∧ (waitingForDrop.circ .a).comp = 1 ∧
      waitingForDrop.store.recipe? 0 = some recipe0 ∧
      (waitingForDrop.claim .a).need = .zero ∧ (waitingForDrop.claim .a).state = .idle ∧
      (waitingForDrop.claim .a).committed = .zero ∧ waitingForDrop.bay ≠ .safe ∧ 0 < rinse0.flow ∧
      fillWaiting.conn Drop.d1.num = false ∧ fillWaiting.compAtDrop Drop.d1.num = some 1 ∧
      fillWaiting.fill.comp = 1 ∧ fillWaiting.fill.line ≠ 0 ∧
      fillWaiting.adm.claimFill.need = .zero ∧ fillWaiting.adm.claimFill.state = .idle ∧
      (bayIn .live).comp? 1 = none := by decide

theorem witness_DropLossEndsWork :
    (washingAt .running 1).conn Drop.d1.num = true ∧
      (washingAt .running 1).compAtDrop Drop.d1.num = some 1 ∧
      (washingAt .running 1).stepOf .a = some rinse0 ∧ (washingAt .running 1).bay ≠ .safe ∧
      (washingAt .running 1).cfg.runOutTime ≠ 0 ∧ (washingAt .running 1).circA.runOut = none ∧
      ((washingAt .running 1).circ .a).entered = true ∧
      { washingAt .paused 1 with bay := .safe }.bay = .safe ∧
      jobGoesOn { washingAt .paused 1 with bay := .safe } 1 ∧
      nothingQueued { washingAt .paused 1 with bay := .safe } .a ∧
      { washingAt .paused 1 with bay := .safe }.fill.order = [] ∧
      { cfg0 with runOutTime := 0 }.runOutTime = 0 ∧
      (fillingAt .flowing).compAtDrop Drop.d1.num = some 1 ∧
      (fillingAt .flowing).conn Drop.d1.num = true ∧ (fillingAt .flowing).fill.comp = 1 ∧
      (fillingAt .flowing).fill.runOut = none ∧
      { (fillingAt .closing).fill with closeKind := .normal }.closeKind = .normal ∧
      { (fillingAt .closing).fill with closeKind := .abort }.closeKind = .abort ∧
      (fillingAt .awaitSkid).fill.started = true ∧
      { (fillingAt .admitting).fill with started := false }.started = false ∧
      jobGoesOn (fillingAt .awaitSkid) 1 ∧ (fillingAt .awaitSkid).fill.order = [] := by
  refine ⟨?_, ?_, rfl, ?_, ?_, rfl, rfl, rfl, ?_, ?_, rfl, rfl, ?_, ?_, rfl, rfl, rfl, rfl, rfl, rfl,
    ?_, rfl⟩
  · decide
  · decide
  · decide
  · decide
  · exact jobGoesOn_of_second _ _ rfl rfl
  · exact nothingQueued_of_all _ _ (by decide)
  · decide
  · decide
  · exact jobGoesOn_of_second _ _ rfl rfl

theorem witness_SkidAndLevelInputs :
    (fillingAt .awaitSkid).deliv FillLine.l1.num = false ∧ (fillingAt .awaitSkid).fill.line = 1 ∧
      (fillingAt .awaitSkid).high (fillingAt .awaitSkid).fill.dropSel = false ∧
      { fillingAt .awaitSkid with pins := { State.reset.pins with high := 1 } }.high 1 = true ∧
      (fillingAt .awaitSkid).fill.runOut = none ∧
      ¬((fillingAt .awaitSkid).fill.state = .awaitSkid ∧
        (fillingAt .awaitSkid).fill.line = FillLine.l2.num) ∧
      (fillingAt .flowing).high Drop.d1.num = false ∧
      (fillingAt .flowing).fill.dropSel = Drop.d1.num ∧
      ¬((fillingAt .flowing).fill.state = .flowing ∧
        (fillingAt .flowing).fill.dropSel = Drop.d2.num) := by decide

theorem witness_FillMeterCounts :
    (fillingAt .flowing).fill.state = .flowing ∧ (fillingAt .flowing).fill.closePoint ≤ 1 ∧
      (fillingAt .flowing).fill.runOut = none ∧
      1 < { (fillingAt .flowing).fill with closePoint := 2 }.closePoint ∧
      (fillingAt .closing).fill.state = .closing ∧ (fillingAt .admitting).fill.state ≠ .flowing ∧
      (fillingAt .admitting).fill.state ≠ .closing := by decide

theorem witness_PulsesAndStalls :
    ((washingAt .running 1).circ .a).state = .running ∧
      ((washingAt .running 1).circ .b).state ≠ .running ∧
      ((washingAt .running 1).circ .a).stallMonitor ≠ none ∧
      (washingAt .running 1).stepOf .a = some rinse0 ∧
      ((washingAt .running 1).circ .a).stallLimit = none ∧
      ({ circAt .running 1 with stallLimit := some 0 } : Circuit).stallLimit ≠ none ∧
      (washingAt .running 1).cfg.runOutTime ≠ 0 ∧ ((washingAt .running 1).circ .a).runOut = none := by
  decide

theorem witness_NamesAreSeparate :
    Side.a ≠ Side.b ∧ Consumer.a ≠ Consumer.fill ∧ Drop.d1 ≠ Drop.d8 ∧ FillLine.l1 ≠ FillLine.l4 := by
  decide

theorem witness_ProbeSampleHeld :
    (Conversions.mk none (some (-1)) (some 5) none (some 10000)).t1 = none ∧ (-1 : Int) < 0 := by decide

theorem witness_MeasurementsDecide :
    70 ≤ 74 ∧ 74 ≤ 240 ∧ 74 ≤ 70 + 4 ∧ 70 + 4 < 82 ∧ 82 ≤ 70 + 12 ∧ 70 + 12 < 83 ∧ 240 < 241 ∧
      98 + 1 < 100 ∧ 100 + 1 < 102 ∧ 100 ≤ 99 + 1 ∧ 101 ≤ 100 + 1 := by decide

theorem witness_WashSecondEnters :
    ((washingAt .running 1).circ .a).state = .running ∧
      ((washingAt .running 1).circ .a).stepSecond ≠ none ∧
      (washingAt .running 1).stepOf .a = some rinse0 ∧
      (washingAt .running 2).stepOf .a = some wash0 ∧
      (washingAt .running 3).stepOf .a = some drain0 ∧ rinse0.kind = .rinse ∧ wash0.kind = .wash ∧
      0 + 1 < rinse0.maxTime ∧ ¬rinse0.target ≤ 1 ∧ rinse0.target ≤ 2 ∧ rinse0.maxTime ≤ 20 ∧
      wash0.target ≤ 256 / 256 ∧ cfg0.probeFaultLimit < 6 ∧ 5 ≤ cfg0.probeFaultLimit ∧
      (washingAt .running 1).stepAt .a 2 = some wash0 ∧
      (washingAt .running 1).cfg.runOutTime ≠ 0 ∧ { cfg0 with runOutTime := 0 }.runOutTime = 0 ∧
      ((washingAt .running 1).circ .a).runOut = none ∧
      (washingAt .running 1).comp? ((washingAt .running 1).circ .a).comp ≠ none ∧
      jobGoesOn (washingAt .running 1) 1 ∧ nothingQueued (washingAt .running 1) .a ∧
      (washingAt .running 1).fill.order = [] := by
  refine ⟨rfl, ?_, rfl, rfl, rfl, rfl, rfl, ?_, ?_, ?_, ?_, ?_, ?_, ?_, rfl, ?_, rfl, rfl, ?_, ?_, ?_,
    rfl⟩
  · decide
  · decide
  · decide
  · decide
  · decide
  · decide
  · decide
  · decide
  · decide
  · decide
  · exact jobGoesOn_of_second _ _ rfl rfl
  · exact nothingQueued_of_all _ _ (by decide)

theorem witness_StepEntryFields :
    rinse0.kind ≠ .inspect ∧ inspect0.kind = .inspect ∧
      (washingAt .running 4).comp? ((washingAt .running 4).circ .a).comp ≠ none := by decide

theorem witness_DrainStepEnds :
    (washingAt .running 3).stepOf .a = some drain0 ∧ (washingAt .running 1).stepOf .a = some rinse0 ∧
      rinse0.kind ≠ .drain ∧ (washingAt .running 3).pins.sump = false ∧
      (after .sumpEmptyAsserted (washingAt .running 3)).pins.sump = true ∧
      ((washingAt .running 3).circ .a).state = .running ∧
      ((washingAt .running 3).circ .a).sump = none ∧
      ((washingAt .running 3).circ .a).stepSecond ≠ none ∧ 1 < drain0.maxTime ∧ drain0.maxTime ≤ 2 ∧
      ((after .sumpEmptyAsserted (washingAt .running 3)).circ .a).sump ≠ none := by decide

theorem witness_InspectSecondJudges :
    ((washingAt .running 4).circ .a).state = .running ∧
      ((washingAt .running 4).circ .a).stepSecond ≠ none ∧
      (washingAt .running 4).stepOf .a = some inspect0 ∧ inspect0.kind = .inspect ∧
      rinse0.kind ≠ .inspect ∧ 1 < inspect0.target ∧ inspect0.target ≤ 6 ∧
      (washingAt .running 4).recipeOf ((washingAt .running 4).circ .a).comp = some recipe0 ∧
      (washingAt .running 4).comp? 1 ≠ none ∧ 0 < recipe0.retryLimit ∧ recipe0.retryLimit ≤ 1 ∧
      0 < { recipe0 with coverageMin := 1 }.coverageMin ∧
      (washingAt .running 4).stepAt .a recipe0.repeatIndex = some rinse0 ∧
      (washingAt .running 4).cfg.runOutTime ≠ 0 ∧ { cfg0 with runOutTime := 0 }.runOutTime = 0 ∧
      ((washingAt .running 4).circ .a).runOut = none ∧ jobGoesOn (washingAt .running 4) 1 ∧
      nothingQueued (washingAt .running 4) .a ∧ (washingAt .running 4).fill.order = [] ∧
      loaded1.fillLine ≠ 0 ∧ loaded2.fillLine = 0 ∧ (fillingAt .flowing).fill.state ≠ .idle := by
  refine ⟨rfl, ?_, rfl, rfl, ?_, ?_, ?_, rfl, ?_, ?_, ?_, ?_, rfl, ?_, rfl, rfl, ?_, ?_, rfl, ?_, rfl,
    ?_⟩
  · decide
  · decide
  · decide
  · decide
  · decide
  · decide
  · decide
  · decide
  · decide
  · exact jobGoesOn_of_second _ _ rfl rfl
  · exact nothingQueued_of_all _ _ (by decide)
  · decide
  · decide

/-- LIVE, circuit A running out with a carried outcome, the fill controller busy. -/
def runningOutWith (k : Carried) : State :=
  { washingAt .runOut 4 with
    jobs := ⟨none, some (jobWith .ending (some .a)), .none, .none⟩
    circA := { circAt .runOut 4 with runOut := some 0, carried := some k }
    fill := { FillController.reset ⟨0, 0, 0, 0⟩ 5 with state := .waitDrop, comp := 2 } }

/-- The job over but for compartment 1, on circuit A in RUN_OUT. -/
def lastRunOut : State :=
  { runningOutWith (.ends .failed .probe) with
    jobs :=
      ⟨none, some ⟨9, true, [{ Comp.promoted loaded1 with state := .ending, owner := some .a }]⟩,
        .none, .none⟩ }

/-- Compartment 2, at drop 2, queued behind compartment 1 on circuit A in RUN_OUT. -/
def queuedBehind : State :=
  { runningOutWith (.ends .failed .probe) with
    jobs :=
      ⟨none,
        some ⟨9, true, [{ Comp.promoted loaded1 with state := .ending, owner := some .a },
          Comp.promoted { loaded2 with drop := 2 }]⟩,
        .none, .none⟩
    pins := { State.reset.pins with conn := 1 } }

theorem witness_WaitsAndRunOutsEnd :
    ((runningOutWith .pass).circ .a).runOut ≠ none ∧ ((runningOutWith .pass).circ .a).comp = 1 ∧
      (runningOutWith .pass).comp? 1 ≠ none ∧ nothingQueued (runningOutWith .pass) .a ∧
      (runningOutWith .pass).fill.state ≠ .idle ∧
      ((runningOutWith (.ends .failed .probe)).circ .a).carried = some (.ends .failed .probe) ∧
      CompState.failed.terminal = true ∧ jobGoesOn (runningOutWith .pass) 1 ∧
      nextQueued queuedBehind .a 2 (Comp.promoted { loaded2 with drop := 2 }) ∧
      queuedBehind.jobRunning = true ∧ queuedBehind.conn 2 = false ∧ lastRunOut.jobs.staged = none ∧
      lastRunOut.comp? 1 =
        some { Comp.promoted loaded1 with state := .ending, owner := some .a } ∧
      (∀ m q, m ≠ 1 → lastRunOut.comp? m = some q → q.state.terminal = true) ∧
      loaded1.fillLine ≠ 0 ∧ loaded2.fillLine = 0 ∧
      { runningOutWith .pass with pins := State.reset.pins }.conn loaded1.drop = false ∧
      (waitingForDrop.circ .a).dropWait ≠ none ∧
      (waitingForDrop.circ .b).dropWait = none ∧ jobGoesOn waitingForDrop 1 ∧
      nothingQueued waitingForDrop .a ∧ fillWaiting.fill.dropWait ≠ none ∧
      fillWaiting.fill.started = false ∧ fillWaiting.fill.order = [] ∧ jobGoesOn fillWaiting 1 := by
  refine ⟨?_, rfl, ?_, ?_, ?_, rfl, rfl, ?_, ?_, ?_, ?_, rfl, rfl, ?_, ?_, rfl, ?_, ?_, rfl, ?_, ?_,
    ?_, rfl, rfl, ?_⟩
  · decide
  · decide
  · exact nothingQueued_of_all _ _ (by decide)
  · decide
  · exact jobGoesOn_of_second _ _ rfl rfl
  · refine ⟨rfl, rfl, rfl, ?_⟩
    intro m q hm hq
    have h : m = 0 ∨ m = 1 := by omega
    rcases h with rfl | rfl
    · cases hq
    · cases hq
      intro hs
      cases hs
  · decide
  · decide
  · intro m q hm hq
    match m, hm with
    | 0, _ => cases hq
    | n + 2, _ => cases hq
  · decide
  · decide
  · decide
  · exact jobGoesOn_of_second _ _ rfl rfl
  · exact nothingQueued_of_all _ _ (by decide)
  · decide
  · exact jobGoesOn_of_second _ _ rfl rfl

/-- Filling with every fill timer at its end and a close kind. -/
def fillTimersAt (st : FillState) (k : CloseKind) : State :=
  { fillingAt st with
    pins := { State.reset.pins with conn := 1, deliv := 1 }
    fill :=
      { (fillingAt st).fill with
        skid := some 0, noFlow := some 0, runOut := some 0, closeKind := k } }

/-- The same with compartment 2, at drop 2, first in the FILL_WAIT order. -/
def fillBehind (st : FillState) (k : CloseKind) : State :=
  { fillTimersAt st k with
    jobs :=
      ⟨none,
        some ⟨9, true, [{ Comp.promoted loaded1 with state := .filling, owner := some .fill },
          { Comp.promoted { loaded2 with drop := 2, fillLine := 1 } with state := .fillWait }]⟩,
        .none, .none⟩
    fill := { (fillTimersAt st k).fill with order := [2] } }

/-- The fill of the last compartment, the other one DONE with a fill FILLED. -/
def lastFill (k : CloseKind) : State :=
  { fillTimersAt .closing k with
    jobs :=
      ⟨none,
        some ⟨9, true, [{ Comp.promoted loaded1 with state := .filling, owner := some .fill },
          { Comp.promoted loaded2 with
            state := .done, fillEntry := some ⟨1, .filled, 100, 100, 98, 3, 0, 7⟩ }]⟩,
        .none, .none⟩
    fill := { (fillTimersAt .closing k).fill with pulses := 100 } }

theorem witness_FillEnds_job :
    (lastFill .normal).fill.comp = 1 ∧ (lastFill .normal).comp? 1 ≠ none ∧
      CompState.filling.terminal = false ∧
      (∀ m q, m ≠ 1 → (lastFill .normal).comp? m = some q → q.state.terminal = true) ∧
      (lastFill .normal).jobs.staged = none ∧ (lastFill .normal).fill.started = true ∧
      (lastFill .normal).fill.skid ≠ none ∧ (lastFill .normal).fill.noFlow ≠ none ∧
      (lastFill .normal).fill.runOut ≠ none ∧ (lastFill .high).fill.closeKind = .high := by
  refine ⟨rfl, by decide, by decide, ?_, rfl, rfl, by decide, by decide, by decide, rfl⟩
  intro m q hm h
  rcases comp_of_two _ _ _ _ rfl rfl m q h with ⟨rfl, rfl⟩ | ⟨rfl, rfl⟩
  · exact absurd rfl hm
  · decide

/-- R21: a last fill FILLED ends the job PASS, one ended HIGH_LEVEL ends it FAIL. -/
theorem test_last_fill_decides_job :
    (after .fillRunOutExpiry (lastFill .normal)).jobs.last = .pass ∧
      (after .fillRunOutExpiry (lastFill .high)).jobs.last = .fail := by decide

theorem witness_FillEnds :
    (fillTimersAt .flowing .none).fill.comp = 1 ∧ (fillTimersAt .flowing .none).comp? 1 ≠ none ∧
      jobGoesOn (fillTimersAt .flowing .none) 1 ∧ (fillTimersAt .flowing .none).fill.order = [] ∧
      (fillTimersAt .flowing .none).fill.started = true ∧
      (fillTimersAt .flowing .none).fill.skid ≠ none ∧
      (fillTimersAt .flowing .none).fill.noFlow ≠ none ∧
      (fillTimersAt .flowing .none).deliv FillLine.l1.num = true ∧
      (fillTimersAt .flowing .none).fill.line = FillLine.l1.num ∧
      (fillTimersAt .closing .normal).fill.runOut ≠ none ∧
      (fillTimersAt .closing .high).fill.closeKind = .high ∧ (fillingAt .flowing).fill.skid = none ∧
      (fillBehind .closing .high).jobRunning = true ∧
      (fillBehind .closing .high).fill.order = 2 :: [] ∧
      2 ≠ (fillBehind .closing .high).fill.comp ∧
      (fillBehind .closing .high).comp? 2 =
        some { Comp.promoted { loaded2 with drop := 2, fillLine := 1 } with state := .fillWait } ∧
      (fillBehind .closing .high).conn 2 = false ∧
      (fillBehind .closing .high).fill.closeKind ≠ .normal := by
  refine ⟨rfl, ?_, ?_, rfl, rfl, ?_, ?_, ?_, rfl, ?_, rfl, rfl, ?_, rfl, ?_, rfl, ?_, ?_⟩
  · decide
  · exact jobGoesOn_of_second _ _ rfl rfl
  all_goals decide

/-- LIVE, circuit A in RUN with its claim granted and circuit B and the fill idle. -/
def runningBay : State :=
  { washingAt .running 2 with
    adm :=
      { (bayIn .live).adm with
        claimA := ⟨wash0.draws, wash0.draws, .satisfied, 0, false, some 0⟩ } }

/-- LIVE, the claim of circuit A waiting for the wash step, the announcement timer at its end. -/
def claimWaiting (st : ClaimState) : State :=
  { washingAt .admitting 2 with
    adm :=
      { (bayIn .live).adm with
        announce := some 0
        settle := some 0
        claimA := ⟨wash0.draws, .zero, st, 0, false, none⟩ } }

/-- LIVE with DERATE asserted, circuit A over the yard's flow, its claim committed at the tick before. -/
def shedAtTick : State :=
  recomputeCapacities
    { bothHold 100 with
      pins := { (bothHold 100).pins with derate := true }
      adm := { (bothHold 100).adm with announce := some 0 } }

theorem witness_TickAnnounces_shed :
    shedAtTick.pins.derate = true ∧ notStopped shedAtTick ∧ shedAtTick.adm.announce ≠ none ∧
      shedsNow shedAtTick shedAtTick.adm.eff
        ({ shedAtTick.adm with tick := shedAtTick.adm.tick + 1 } : Admission).newestAge
        (shedAtTick.adm.tick + 1) .b .flow := by
  refine ⟨rfl, .inr rfl, by decide, ?_, .inr ⟨rfl, ?_⟩, by decide, ?_⟩
  · unfold shedDue; decide
  · unfold shedDue; decide
  · intro d hd _; cases d
    · exact ⟨6, 4, rfl, rfl, by decide⟩
    · exact absurd rfl hd

/-- LIVE, the claims of A, B and the fill waiting: A for more than the capacity, longest. -/
def threeWait : State :=
  { claimWaiting .waiting with
    adm :=
      { (claimWaiting .waiting).adm with
        tick := 9
        claimA := ⟨⟨5000, 0, 0, 0⟩, .zero, .waiting, 0, false, none⟩
        claimB := ⟨wash0.draws, .zero, .waiting, 4, false, none⟩
        claimFill := ⟨⟨0, 0, 0, 1⟩, .zero, .waiting, 4, false, none⟩ } }

theorem witness_TickAnnounces_oversize :
    threeWait.bay = .live ∧ (∀ m, (threeWait.claim m).state ≠ .intent) ∧
      (threeWait.claim .b).state = .waiting ∧ ¬oversized threeWait .b ∧ oversized threeWait .a ∧
      (∀ m, m ≠ .b → (threeWait.claim m).state = .waiting →
        oversized threeWait m ∨
        tickAge (threeWait.adm.tick + 1) (threeWait.claim m).waitStart <
          tickAge (threeWait.adm.tick + 1) (threeWait.claim .b).waitStart ∨
        (tickAge (threeWait.adm.tick + 1) (threeWait.claim m).waitStart =
            tickAge (threeWait.adm.tick + 1) (threeWait.claim .b).waitStart ∧
          (Consumer.b, m) ∈ [(Consumer.a, Consumer.b), (.a, .fill), (.b, .fill)])) ∧
      noShed threeWait threeWait.adm.eff
        ({ threeWait.adm with tick := threeWait.adm.tick + 1 } : Admission).newestAge ∧
      ((after .announcementTick threeWait).claim .b).state = .intent := by
  unfold oversized
  refine ⟨rfl, ?_, rfl, by decide, by decide, ?_, ?_, by decide⟩
  · intro m; cases m <;> decide
  · intro m; cases m <;> decide
  · unfold noShed shedDue; decide

theorem witness_TickAnnounces :
    (bayIn .live).adm.announce = none ∧ (claimWaiting .waiting).adm.announce ≠ none ∧
      { (claimWaiting .waiting).line with pendingFrame := .leave [3] true false false }.pendingFrame =
        .leave [3] true false false ∧
      (claimWaiting .waiting).line.pendingFrame = .empty ∧
      (∀ k, ((after .announcementTick (bayIn .listen)).claim k).state ≠ .intent) ∧
      ((after .announcementTick (claimWaiting .waiting)).claim .a).state = .intent ∧
      (∀ m, m ≠ .a → ((after .announcementTick (claimWaiting .waiting)).claim m).state ≠ .intent) ∧
      (runningBay.claim .a).committed ≠ .zero ∧ (runningBay.claim .a).commitTick = some 0 ∧
      (claimWaiting .waiting).pins.derate = false ∧ (claimWaiting .waiting).bay = .live ∧
      (bayIn .safe).bay ≠ .live ∧
      (∀ m, ((claimWaiting .waiting).claim m).state ≠ .intent) ∧
      ((claimWaiting .waiting).claim .a).state = .waiting ∧
      ¬oversized (claimWaiting .waiting) .a ∧
      (∀ m, m ≠ .a → ((claimWaiting .waiting).claim m).state ≠ .waiting) := by
  refine ⟨rfl, ?_, rfl, rfl, ?_, ?_, ?_, ?_, rfl, rfl, rfl, ?_, ?_, rfl, ?_, ?_⟩
  · decide
  · intro m; cases m <;> decide
  · decide
  · intro m; cases m <;> decide
  · decide
  · decide
  · intro m; cases m <;> decide
  · unfold oversized; decide
  · intro m; cases m <;> decide

theorem witness_SettleDecides :
    (bayIn .live).adm.settle = none ∧ (claimWaiting .intent).adm.settle ≠ none ∧
      { (claimWaiting .intent).line with degraded := true }.degraded = true ∧
      { (claimWaiting .intent).adm with announcedAge := some 1 }.announcedAge = some 1 ∧ 0 < 4 ∧ 3 < 4 ∧
      (claimWaiting .intent).line.degraded = false ∧
      (claimWaiting .intent).adm.intentClaim = some .a ∧
      (∀ q, peersCommitted (claimWaiting .intent).peers q + (claimWaiting .intent).rankedIntents q +
          (claimWaiting .intent).adm.ownCommitted q +
          (((claimWaiting .intent).claim .a).need.amount q -
            ((claimWaiting .intent).claim .a).committed.amount q) ≤
        (claimWaiting .intent).adm.eff q) ∧
      (claimWaiting .intent).lineFits 0 = true ∧
      (claimWaiting .intent).adm.eff .heat < peersCommitted [{ peerOf 2 with committedHeat := 401 }] .heat +
        ((claimWaiting .intent).claim .a).need.heat ∧
      { claimWaiting .intent with peers := [{ peerOf 2 with heldLines := 1 }] }.lineFits 1 = false ∧
      ((claimWaiting .intent).circ .a).state = .admitting ∧
      (claimWaiting .intent).stepOf .a = some wash0 ∧ (fillingAt .admitting).fill.state = .admitting ∧
      (fillingAt .admitting).deliv (fillingAt .admitting).fill.line = false ∧
      (fillingAt .admitting).fill.skid = none := by
  refine ⟨rfl, ?_, rfl, rfl, ?_, ?_, rfl, rfl, ?_, ?_, ?_, ?_, rfl, rfl, rfl, ?_, rfl⟩
  · decide
  · decide
  · decide
  · intro q; cases q <;> decide
  · decide
  · decide
  · decide
  · decide

theorem witness_ListenAndAgesExpire :
    { Admission.reset with listen := some 0 }.listen ≠ none ∧ (bayIn .listen).bay = .listen ∧
      (bayIn .live).bay ≠ .listen ∧ (bayIn .live).peer? 2 = none ∧ ¬inYard (bayIn .setup) ∧
      { bayIn .live with peers := [peerOf 2] }.peer? 2 = some (peerOf 2) ∧
      (peerOf 2).stale = false ∧ inYard (bayIn .live) ∧
      (750 - (peerOf 2).heard).toNat ≤ 3 * (bayIn .live).cfg.period ∧
      3 * (bayIn .live).cfg.period < (751 - (peerOf 2).heard).toNat ∧
      (2000 - (peerOf 2).heard).toNat ≤ 8 * (bayIn .live).cfg.period ∧
      8 * (bayIn .live).cfg.period < (2001 - (peerOf 2).heard).toNat := by
  refine ⟨?_, rfl, ?_, rfl, ?_, rfl, rfl, .inr (.inl rfl), ?_, ?_, ?_, ?_⟩
  · decide
  · decide
  · rintro (h | h | h) <;> cases h
  all_goals decide

theorem witness_AnnounceStoresPeer :
    (bayIn .setup).bay = .setup ∧ (bayIn .live).line.framer.own = false ∧ inYard (bayIn .live) ∧
      report2.address ≠ 0 ∧ (bayIn .live).ownAddr ≠ some report2.address ∧
      (bayIn .live).peer? report2.address = none ∧
      report2.capSet.toNat = (bayIn .live).cfg.capSet ∧ (bayIn .live).line.degraded = false ∧
      (bayIn .live).line.window = [] ∧ (bayIn .live).events.records.length < 32 := by
  refine ⟨rfl, rfl, .inr (.inl rfl), ?_, ?_, ?_, ?_, rfl, rfl, ?_⟩ <;> decide

theorem witness_LeaveRollCallAndClash :
    (bayIn .live).line.framer.own = false ∧ inYard (bayIn .live) ∧ report2.address ≠ 0 ∧
      (bayIn .live).ownAddr ≠ some report2.address ∧ (15 : BitVec 4) ≠ 0 ∧
      (bayIn .live).ownAddr ≠ some 15 ∧
      { bayIn .live with peers := [peerOf 15] }.peer? 15 = some (peerOf 15) ∧
      { report2 with address := 0 }.address = 0 ∧ (bayIn .live).ownAddr = some 3 ∧
      notStopped (bayIn .live) ∧ (bayIn .safe).bay = .safe := by
  refine ⟨rfl, .inr (.inl rfl), ?_, ?_, ?_, ?_, ?_, rfl, rfl, .inr rfl, rfl⟩ <;> decide

/-- The line unit free, with a frame pending and a roll call or none. -/
def lineWith (p : PendingFrame) (r : Option RollCall) : LineUnit :=
  { LineUnit.reset with free := true, pendingFrame := p, rollCall := r }

/-- LIVE with a line unit, at sample 14 of a cell. -/
def onLine (l : LineUnit) : State :=
  { bayIn .live with line := { l with clock := { l.clock with sample := 14 } } }

theorem witness_AttemptTakesContent :
    (bayIn .live).pins.yls = true ∧ LineUnit.reset.framer.inFrame = false ∧
      (bayIn .setup).bay = .setup ∧ (bayIn .live).bay ≠ .setup ∧
      (beforeCell (onLine (lineWith .empty none))).bay ≠ .setup ∧
      (beforeCell (onLine (lineWith .empty none))).line.attempt = none ∧
      (beforeCell (onLine (lineWith .empty none))).line.hold = false ∧
      (beforeCell (onLine (lineWith .empty none))).line.free = true ∧
      (beforeCell (onLine (lineWith .empty none))).line.pendingFrame = .empty ∧
      (beforeCell (onLine (lineWith (.leave [3] true false false) none))).line.pendingFrame =
        .leave [3] true false false ∧
      (beforeCell (onLine (lineWith .empty (some ⟨[35, 7], false⟩)))).line.rollCall =
        some ⟨[35, 7], false⟩ ∧
      (beforeCell (onLine (lineWith (.announce [19] none false) none))).line.pendingFrame =
        .announce [19] none false ∧
      (beforeCell (onLine .reset)).line.free = false ∧
      (onLine (lineWith .empty none)).line.clock.sample ≠ 0 ∧
      { bayIn .live with line := lineWith (.announce [19] none false) none }.line.clock.sample = 0 := by
  decide

/-- R154: the first bit of the attempt is driven in the cell after the samples, and none before. -/
theorem test_attempt_begins_with_cell :
    (after .attemptStart (onLine (lineWith (.announce [19] none false) none))).yld = true ∧
      (quietSample
        (after .attemptStart (onLine (lineWith (.announce [19] none false) none)))).yld = false := by
  decide

/-- R154: in a cell begun by an edge that relocks the clock the attempt begins with that cell. -/
theorem test_attempt_begins_with_edge :
    (after (.ylsEdge 3) (onLine (lineWith (.announce [19] none false) none))).line.clock.sample = 0 ∧
      (after .attemptStart
        (after (.ylsEdge 3) (onLine (lineWith (.announce [19] none false) none)))).yld = false := by
  decide

theorem witness_AttemptEnds :
    LineUnit.reset.attempt = none ∧
      { lineWith (.announce [19] none true) none with
        attempt := some ⟨.announce none, [19], 0⟩ }.attempt = some ⟨.announce none, [19], 0⟩ ∧
      1 < arbitrationBits [19] ∧ (lineBits [19]).getD 1 false = true ∧
      0 < (lineBits [19]).length ∧ (lineBits [19]).getD 0 false = false ∧
      16 < (lineBits [19]).length ∧ arbitrationBits [19] ≤ 16 ∧
      (claimWaiting .intent).adm.intentClaim = some .a ∧
      { SafeStop.reset with silence := .leavePending }.silence = .leavePending := by decide

set_option maxRecDepth 8000 in
theorem witness_DiscardEntersBadOutcome :
    (bayIn .setup).bay = .setup ∧ (bayIn .live).bay ≠ .setup ∧
      LineUnit.reset.framer.inFrame = false ∧ (LineUnit.reset.framer.opened true).own = true ∧
      (LineUnit.reset.framer.opened false).inFrame = true ∧
      (LineUnit.reset.framer.opened false).own = false ∧
      (LineUnit.reset.framer.opened false).afterBitError = false ∧
      (Clock.mk true 7 0 false false false 16).sample = 7 ∧
      (Clock.mk true 7 0 false false false 16).locked = true ∧
      16 ≤ (Clock.mk true 7 0 false false false 16).sinceAdjust ∧
      { LineUnit.reset.framer.opened false with ones := 6 }.ones = 6 ∧
      (bayIn .live).pins.yls = true ∧
      { State.reset.pins with yls := false }.yls = false ∧ (5 : Nat) ≠ 6 ∧ 208 < 203 + 1 + 5 ∧
      checkFrame [true] = some .short ∧
      checkFrame (List.replicate 33 true) = some .align ∧
      checkFrame (List.replicate 31 true ++ [false]) = some .crc ∧
      checkFrame (frameBits [0x33, 0x07]) = some .format ∧
      checkFrame (frameBits [0x23, 0x07]) = none := by decide

theorem witness_ClockAndLineFollowEdges :
    (bayIn .setup).bay = .setup ∧ (bayIn .live).bay ≠ .setup ∧ (bayIn .live).pins.yls = true ∧
      { State.reset.pins with yls := false }.yls = false ∧
      (bayIn .live).line.clock.lengthen = false ∧ (bayIn .live).line.clock.shorten = false ∧
      (bayIn .live).line.clock.sample < 8 ∧ (bayIn .live).line.framer.inFrame = false ∧
      { LineUnit.reset.framer with ones := 6, armed := true }.armed = true ∧
      (Attempt.mk .rollCall [35, 7] 8).cells = 8 ∧ LineUnit.reset.free = false ∧
      { LineUnit.reset with quietOnes := 7 }.quietOnes = 7 ∧ (lineWith .empty none).free = true ∧
      LineUnit.reset.framer.ones ≠ 6 ∧
      (Clock.mk true 15 31 false false false 16).quietCells = 31 ∧
      (Clock.mk true 15 31 false false false 16).edgeInCell = false ∧
      (Clock.mk true 14 0 false false false 16).locked = true ∧
      (Clock.mk true 14 0 false false false 16).sample < 15 ∧
      16 ≤ (Clock.mk true 14 0 false false false 16).sinceAdjust ∧
      (Clock.mk false 14 0 false false false 16).locked = false ∧
      (Clock.mk true 14 0 false false false 15).sinceAdjust < 16 ∧
      (Clock.mk true 15 30 true false false 16).sample = 15 ∧
      (Clock.mk true 15 30 true false false 16).quietCells < 31 := by decide

theorem witness_FramesSurviveTheLine :
    { LineUnit.reset.framer with ones := 7 }.ones = 7 ∧ LineUnit.reset.framer.inFrame = false ∧
      (List.replicate 208 true).length ≤ 208 ∧
      (0x1F : Byte).toNat / 16 ≤ 1 ∧ (List.replicate 18 (0 : Byte)).length = 18 ∧
      (0x2F : Byte).toNat / 16 = 2 ∧ [(7 : Byte)].length = 1 := by
  refine ⟨rfl, rfl, ?_, ?_, rfl, rfl, rfl⟩
  · exact Nat.le_of_eq List.length_replicate
  · decide

theorem witness_StepsKeepBooks :
    booksRight runningBay ∧
      step { runningBay with pending := [.preparationDone] } =
        .next { runningBay with port := { runningBay.port with preparing := false } } := by
  refine ⟨⟨?_, ?_, ?_, ?_, ?_, ?_⟩, rfl⟩
  · unfold overrideRight; decide
  · unfold causesRight; decide
  · unfold eventsBounded; decide
  · unfold lineHealthy; decide
  · unfold trailsBounded; decide
  · exact ⟨List.Pairwise.nil, fun p h => (List.not_mem_nil h).elim, fun _ => rfl⟩

theorem witness_StepsKeepDraws :
    drawsRight runningBay ∧
      step { runningBay with pending := [.preparationDone] } =
        .next { runningBay with port := { runningBay.port with preparing := false } } := by
  refine ⟨⟨?_, ?_, ?_, ?_, ?_, ?_⟩, rfl⟩
  · intro q; cases q <;> decide
  · intro q; cases q <;> decide
  · decide
  · decide
  · exact fun h => absurd rfl h
  · intro h; cases h

theorem witness_StepsKeepValves :
    valvesGuarded runningBay ∧
      step { runningBay with pending := [.preparationDone] } =
        .next { runningBay with port := { runningBay.port with preparing := false } } := by
  refine ⟨⟨?_, ?_, ?_, ?_, ?_, ?_⟩, rfl⟩
  · exact fun h => absurd rfl h
  · intro k; cases k <;> decide
  · intro h; cases h
  · rintro (h | h) <;> cases h
  · intro c h
    cases c
    · exact ⟨by decide, .inr rfl⟩
    · cases h
  · refine ⟨?_, ?_, ?_⟩
    · intro h; cases h
    · rintro (h | h) <;> cases h
    · intro h; cases h

theorem witness_ValvesOpenOnlyGranted :
    runningBay.supplyOpen .a = true ∧
      { fillingAt .flowing with fill := (fillingAt .flowing).fill }.fillValveOpen = true ∧
      (bayIn .safe).bay = .safe ∧ runningBay.pins.resetn = false ∧
      runningBay.safety.override = false ∧ runningBay.stepOf .a = some wash0 ∧
      wash0.kind ≠ .drain ∧ runningBay.mediumPin .a = 2 ∧ runningBay.supplyOpen .b = false ∧
      (washingAt .runOut 1).pumpOn .a = true ∧ (fillingAt .awaitSkid).demand 1 = true ∧
      (fillingAt .flowing).demand 1 = true ∧ (fillingAt .flowing).demand 2 = false ∧
      { lineWith .empty none with attempt := some ⟨.leave, [3], 1⟩ }.attempt =
        some ⟨.leave, [3], 1⟩ ∧
      (lineBits [3])[0]? = some false := by decide

end Sys2Proof.Tests
end

