-- ==== Sys2Proof/Proofs/Scope.lean ====
section
/-!
PROOFS. The statements of 00_scope.md: a step of the timebase on an empty queue (R2, R3), and the names
of circuits, claims and pins (R4, R33, R105), each from the rules of the operations it speaks of.
-/

namespace Sys2Proof

/-! ### The numbers of the pins (R14, R103) -/

theorem Drop.num_bounds (d : Drop) : 1 ≤ d.num ∧ d.num ≤ 8 := by cases d <;> decide

theorem FillLine.num_bounds (l : FillLine) : 1 ≤ l.num ∧ l.num ≤ 4 := by cases l <;> decide

theorem Drop.num_injective : Function.Injective Drop.num := by
  intro d e
  cases d <;> cases e <;> decide

theorem FillLine.num_injective : Function.Injective FillLine.num := by
  intro l m
  cases l <;> cases m <;> decide

end Sys2Proof

namespace Sys2Proof.Machine

open Sys2Proof.Safety

/-! ### The pins (R4) -/

/-- The bits after a pin write: the level at the pin's own bit, the old bit elsewhere. -/
theorem getLsbD_setPin {w n : Nat} (v : BitVec w) (i : Nat) (level : Bool) (hn : n < w) :
    (setPin v (n + 1) level).getLsbD i = if i = n then level else v.getLsbD i := by
  have hmask : (1#w <<< n).getLsbD i = decide (i = n) := by
    rw [← BitVec.twoPow_eq, BitVec.getLsbD_twoPow, decide_eq_true hn, Bool.true_and]
    exact decide_eq_decide.mpr eq_comm
  cases level with
  | true =>
    simp only [setPin, if_true, Nat.add_sub_cancel, BitVec.getLsbD_or, hmask]
    by_cases h : i = n <;> simp [h]
  | false =>
    simp only [setPin, Bool.false_eq_true, if_false, Nat.add_sub_cancel, BitVec.getLsbD_and,
      BitVec.getLsbD_not, hmask]
    by_cases h : i = n
    · simp [h]
    · simpa [h] using BitVec.lt_of_getLsbD (x := v) (i := i)

/-- A pin written reads back as written. -/
theorem pinLevel_setPin_same {w k : Nat} (v : BitVec w) (level : Bool) (hk : 1 ≤ k ∧ k ≤ w) :
    pinLevel (setPin v k level) k = level := by
  obtain ⟨n, rfl⟩ := Nat.exists_eq_add_of_le' hk.1
  simp [pinLevel, getLsbD_setPin v n level hk.2]

/-- Writing a pin leaves every other one at its level. -/
theorem pinLevel_setPin_other {w j k : Nat} (v : BitVec w) (level : Bool) (hk : 1 ≤ k ∧ k ≤ w)
    (h : j ≠ k) : pinLevel (setPin v k level) j = pinLevel v j := by
  obtain ⟨n, rfl⟩ := Nat.exists_eq_add_of_le' hk.1
  cases j with
  | zero => rfl
  | succ m =>
    have hm : m ≠ n := fun e => h (congrArg Nat.succ e)
    simp [pinLevel, getLsbD_setPin v m level hk.2, hm]

/-! ### The timebase (R2, R3) -/

/-- With no command waiting a step is one of the timebase. -/
theorem step_of_empty_queue {s : State} (h : s.pending = []) : step s = .next (idleStep s) := by
  simp [step, h]

theorem idleStep_of_one_due {s : State} {i : Instr} (h : s.due = [i]) :
    idleStep s = { s with pending := [i] } := by
  simp [idleStep, h]

theorem idleStep_of_none_due {s : State} (h : s.due = []) : idleStep s = elapse s := by
  simp [idleStep, h]

theorem working_iff_inYard (s : State) : s.bay.working = true ↔ inYard s := by
  unfold inYard
  cases s.bay <;> decide

/-- The count of R2 moves in LISTEN, LIVE and SAFE. -/
theorem elapse_ms_of_inYard {s : State} (h : inYard s) : (elapse s).ms = s.ms + 1 :=
  if_pos ((working_iff_inYard s).mpr h)

/-- The count of R2 stands still in SETUP and RESETTING. -/
theorem elapse_ms_of_not_inYard {s : State} (h : ¬inYard s) : (elapse s).ms = s.ms :=
  if_neg (mt (working_iff_inYard s).mp h)

@[simp] theorem elapse_circ (s : State) (c : Side) : (elapse s).circ c = (s.circ c).elapse := by
  cases c <;> rfl

theorem FillState.timed_iff (f : FillState) :
    f.timed = true ↔ f = .awaitSkid ∨ f = .flowing ∨ f = .closing := by
  cases f <;> decide

/-- The duration count of a fill runs in AWAIT_SKID, FLOWING and CLOSING (R91). -/
theorem FillController.elapse_duration (f : FillController) :
    f.elapse.duration =
      if f.state = .awaitSkid ∨ f.state = .flowing ∨ f.state = .closing
      then min (f.duration + 1) maxCount else f.duration :=
  ite_congr (propext (FillState.timed_iff f.state)) (fun _ => rfl) (fun _ => rfl)

/-- The fill controller a millisecond later: its timers run down and its duration count runs on. -/
theorem FillController.elapse_eq (f : FillController) :
    f.elapse =
      { f with
        dropWait := f.dropWait.map (· - 1)
        skid := f.skid.map (· - 1)
        noFlow := f.noFlow.map (· - 1)
        runOut := f.runOut.map (· - 1)
        duration :=
          if f.state = .awaitSkid ∨ f.state = .flowing ∨ f.state = .closing
          then min (f.duration + 1) maxCount else f.duration } := by
  rw [← f.elapse_duration]
  rfl

/-! ### The statements -/

/-- Settles O37: the pins by the bit each one has, the circuits and claims by their rules. -/
theorem namesAreSeparate : Obligations.NamesAreSeparate := by
  unfold Obligations.NamesAreSeparate
  refine ⟨fun s c d x k m y => ?_, fun d e l m level v w => ?_⟩
  · exact ⟨setCirc_circ s c x, setCirc_circ_other s x, setCirc_claim s c x k, setCirc_jobs s c x,
      setClaim_claim s k y, setClaim_claim_other s y, setClaim_circ s k y c⟩
  · exact ⟨pinLevel_setPin_same v level d.num_bounds,
      fun h => pinLevel_setPin_other v level d.num_bounds (Drop.num_injective.ne h),
      pinLevel_setPin_same w level l.num_bounds,
      fun h => pinLevel_setPin_other w level l.num_bounds (FillLine.num_injective.ne h)⟩

/-- Settles O2: with none due the successor is `elapse s`, read block by block. -/
theorem emptyQueueStepsTime : Obligations.EmptyQueueStepsTime := by
  unfold Obligations.EmptyQueueStepsTime
  intro s hempty
  refine ⟨fun i hdue => ?_, fun hdue => ⟨elapse s, ?_, elapse_ms_of_inYard, elapse_ms_of_not_inYard,
    rfl, fun c => ?_, s.fill.elapse_eq, rfl, ?_⟩⟩
  · rw [step_of_empty_queue hempty, idleStep_of_one_due hdue]
  · rw [step_of_empty_queue hempty, idleStep_of_none_due hdue]
  · exact elapse_circ s c
  · exact ⟨rfl, rfl, rfl, rfl, rfl, rfl, rfl, rfl, rfl, rfl, rfl, rfl, rfl, rfl, rfl, rfl, hempty⟩

end Sys2Proof.Machine
end

/-!
PROOFS. The statements of 03_cleaning_dose.md: the weight curves and the change matrix as the host writes
them (R31, R60), the channels of the front end (R52, R53), and what two readings and a volume decide
(R55, R56, R94). First what a request of a known command is answered, once for every command (R186, R188).
-/

namespace Sys2Proof.Machine

open Sys2Proof.Safety

/-! ### The answer to a request (R186, R188) -/

/-- A request whose exchange is in progress ends with the state and the response of its answer. -/
theorem hostRequest_of_answer {acc : Accepts} {command : List Byte → State → Answer} {r : Request}
    {s t : State} {st : Status} {body : List Byte} (hx : inExchange s)
    (h : answerCommand acc command r s = respond st body t) :
    hostRequest acc command r s = answeredWith t st body := by
  rw [hostRequest_inExchange acc command r s hx, h]
  rfl

/-- In RESETTING every request is answered RESETTING (R186 case 2). -/
theorem hostRequest_of_resetting (acc : Accepts) (command : List Byte → State → Answer) (r : Request)
    {s : State} (hx : inExchange s) (hs : s.bay = .resetting) :
    hostRequest acc command r s = answeredWith s .resetting [] :=
  hostRequest_of_answer hx (by simp [answerCommand, structureFault, hs, respond])

/-- In a state that does not accept it a command is not executed (R188). -/
theorem hostRequest_of_not_accepts {acc : Accepts} (command : List Byte → State → Answer) {b : List Byte}
    {s : State} (hb : bodyFits b) (hx : inExchange s) (hs : s.bay ≠ .resetting)
    (ha : acc.accepts s.bay = false) :
    hostRequest acc command (requestOf b) s =
      answeredWith s .refusedState [255, BitVec.ofNat 8 s.bay.code] := by
  obtain ⟨hfault, -⟩ := structureFault_requestOf b s hb hs
  exact hostRequest_of_answer hx (by simp [answerCommand, hfault, ha, put1])

/-- In a state that accepts it a command is executed with the body as clocked (R186, R188). -/
theorem hostRequest_of_accepts {acc : Accepts} {command : List Byte → State → Answer} {b : List Byte}
    {s t : State} {st : Status} {body : List Byte} (hb : bodyFits b) (hx : inExchange s)
    (hs : s.bay ≠ .resetting) (ha : acc.accepts s.bay = true)
    (h : command b s = respond st body t) :
    hostRequest acc command (requestOf b) s = answeredWith t st body := by
  obtain ⟨hfault, hbody⟩ := structureFault_requestOf b s hb hs
  exact hostRequest_of_answer hx (by simp [answerCommand, hfault, hbody, ha, h])

/-- A command of SETUP is not executed in LISTEN, LIVE and SAFE (R188). -/
theorem hostRequest_inSetup_of_inYard (command : List Byte → State → Answer) {b : List Byte} {s : State}
    (hb : bodyFits b) (hx : inExchange s) (hs : inYard s) :
    hostRequest .inSetup command (requestOf b) s =
      answeredWith s .refusedState [255, BitVec.ofNat 8 s.bay.code] := by
  refine hostRequest_of_not_accepts command hb hx ?_ ?_
  · rcases hs with h | h | h <;> simp [h]
  · rcases hs with h | h | h <;> simp [h, Accepts.accepts]

/-- A command of SETUP is executed in SETUP (R188). -/
theorem hostRequest_inSetup_of_setup {command : List Byte → State → Answer} {b : List Byte}
    {s t : State} {st : Status} {body : List Byte} (hb : bodyFits b) (hx : inExchange s)
    (hs : s.bay = .setup) (h : command b s = respond st body t) :
    hostRequest .inSetup command (requestOf b) s = answeredWith t st body :=
  hostRequest_of_accepts hb hx (by simp [hs]) (by simp [hs, Accepts.accepts]) h

/-! ### WRITE_WEIGHTS (R60) -/

theorem checkWeights_of_length_ne {b : List Byte} (h : b.length ≠ 17) : checkWeights b = .error 1 :=
  if_pos h

theorem checkWeights_of_curve_gt {b : List Byte} (h : b.length = 17) (hc : 3 < byteAt b 0) :
    checkWeights b = .error 2 := by
  simp [checkWeights, h, hc]

theorem checkWeights_of_curve_le {b : List Byte} (h : b.length = 17) (hc : byteAt b 0 ≤ 3) :
    checkWeights b = .ok (byteAt b 0, (b.drop 1).map BitVec.toNat) := by
  simp [checkWeights, h, Nat.not_lt.mpr hc]

/-- WRITE_WEIGHTS in SETUP with a failing check answers its code and changes nothing (R60). -/
theorem exec_writeWeights_of_error {b : List Byte} {s : State} {code : Nat} (hb : bodyFits b)
    (hx : inExchange s) (hs : s.bay = .setup) (h : checkWeights b = .error code) :
    exec (.writeWeights (requestOf b)) s =
      .next (answeredWith s .badArg [BitVec.ofNat 8 code]) := by
  have hcmd : cmdWriteWeights b s = respond .badArg (put1 code) s := by simp [cmdWriteWeights, h]
  exact congrArg _ (hostRequest_inSetup_of_setup hb hx hs hcmd)

/-- WRITE_WEIGHTS in SETUP with every check passed replaces the curve whole (R60). -/
theorem exec_writeWeights_of_ok {b : List Byte} {s : State} {curve : Nat} {weights : List Nat}
    (hb : bodyFits b) (hx : inExchange s) (hs : s.bay = .setup)
    (h : checkWeights b = .ok (curve, weights)) :
    exec (.writeWeights (requestOf b)) s =
      .next (answeredWith
        { s with store := { s.store with curves := s.store.curves.set curve weights } } .ok []) := by
  have hcmd : cmdWriteWeights b s =
      respond .ok []
        { s with store := { s.store with curves := s.store.curves.set curve weights } } := by
    simp [cmdWriteWeights, h]
  exact congrArg _ (hostRequest_inSetup_of_setup hb hx hs hcmd)

/-! ### WRITE_MATRIX (R31) -/

theorem byteAt_drop_one (b : List Byte) (k : Nat) : byteAt (b.drop 1) k = byteAt b (k + 1) := by
  cases b <;> rfl

/-- The entries are checked in order: the first byte that is no code is the one named (R31). -/
theorem matrixRow_of_first_bad (l : List Byte) (i j : Nat) (hj : j < l.length)
    (hgood : ∀ k, k < j → (matrixOfCode (byteAt l k)).isSome = true)
    (hbad : matrixOfCode (byteAt l j) = none) : matrixRow i l = .error (i + j) := by
  induction l generalizing i j with
  | nil => exact absurd hj (Nat.not_lt_zero j)
  | cons x rest ih =>
    cases j with
    | zero =>
      have hx : matrixOfCode x.toNat = none := hbad
      simp [matrixRow, hx]
    | succ j =>
      obtain ⟨e, he⟩ := Option.isSome_iff_exists.mp (hgood 0 (Nat.succ_pos j))
      have hx : matrixOfCode x.toNat = some e := he
      have hrest : matrixRow (i + 1) rest = .error (i + 1 + j) :=
        ih (i + 1) j (Nat.lt_of_succ_lt_succ hj)
          (fun k hk => hgood (k + 1) (Nat.succ_lt_succ hk)) hbad
      simp [matrixRow, hx, hrest, Nat.add_assoc, Nat.add_comm 1]

/-- Bytes that are all codes give the row they name (R31). -/
theorem matrixRow_of_all_codes (l : List Byte) (i : Nat) (row : List MatrixEntry)
    (h : l.map (fun x => matrixOfCode x.toNat) = row.map some) : matrixRow i l = .ok row := by
  induction l generalizing i row with
  | nil =>
    cases row with
    | nil => rfl
    | cons e es => simp at h
  | cons x rest ih =>
    cases row with
    | nil => simp at h
    | cons e es =>
      simp only [List.map_cons, List.cons.injEq] at h
      obtain ⟨hx, hrest⟩ := h
      simp [matrixRow, hx, ih (i + 1) es hrest]

theorem checkMatrix_of_length_ne {b : List Byte} (h : b.length ≠ 17) :
    checkMatrix b = .error (255, 1) := if_pos h

theorem checkMatrix_of_prior_gt {b : List Byte} (h : b.length = 17) (hp : 15 < byteAt b 0) :
    checkMatrix b = .error (255, 2) := by
  simp [checkMatrix, h, hp]

theorem checkMatrix_of_row_error {b : List Byte} {j : Nat} (h : b.length = 17)
    (hp : byteAt b 0 ≤ 15) (hr : matrixRow 0 (b.drop 1) = .error j) :
    checkMatrix b = .error (j, 3) := by
  simp only [checkMatrix, h, Nat.not_lt.mpr hp, hr, ne_eq, not_true_eq_false, if_false]

theorem checkMatrix_of_row_ok {b : List Byte} {row : List MatrixEntry} (h : b.length = 17)
    (hp : byteAt b 0 ≤ 15) (hr : matrixRow 0 (b.drop 1) = .ok row) :
    checkMatrix b = .ok (byteAt b 0, row) := by
  simp only [checkMatrix, h, Nat.not_lt.mpr hp, hr, ne_eq, not_true_eq_false, if_false]

/-- WRITE_MATRIX in SETUP with a failing check answers its detail and changes nothing (R31). -/
theorem exec_writeMatrix_of_error {b : List Byte} {s : State} {named code : Nat} (hb : bodyFits b)
    (hx : inExchange s) (hs : s.bay = .setup) (h : checkMatrix b = .error (named, code)) :
    exec (.writeMatrix (requestOf b)) s =
      .next (answeredWith s .badArg [BitVec.ofNat 8 named, BitVec.ofNat 8 code]) := by
  have hcmd : cmdWriteMatrix b s = respond .badArg (put1 named ++ put1 code) s := by
    simp [cmdWriteMatrix, h]
  exact congrArg _ (hostRequest_inSetup_of_setup hb hx hs hcmd)

/-- WRITE_MATRIX in SETUP with every check passed replaces the row whole (R31). -/
theorem exec_writeMatrix_of_ok {b : List Byte} {s : State} {prior : Nat} {row : List MatrixEntry}
    (hb : bodyFits b) (hx : inExchange s) (hs : s.bay = .setup)
    (h : checkMatrix b = .ok (prior, row)) :
    exec (.writeMatrix (requestOf b)) s =
      .next (answeredWith
        { s with store := { s.store with matrix := s.store.matrix.set prior row } } .ok []) := by
  have hcmd : cmdWriteMatrix b s =
      respond .ok []
        { s with store := { s.store with matrix := s.store.matrix.set prior row } } := by
    simp [cmdWriteMatrix, h]
  exact congrArg _ (hostRequest_inSetup_of_setup hb hx hs hcmd)

/-- A row not written since power-on reset is FORBIDDEN throughout (R31). -/
theorem reset_entry_forbidden (p n : Nat) : RecipeStore.reset.entry p n = .forbidden := by
  have hrow : RecipeStore.reset.matrix.getD p [] =
      if p < 16 then List.replicate 16 .forbidden else [] := by
    simp only [RecipeStore.reset, List.getD_eq_getElem?_getD, List.getElem?_replicate]
    split <;> rfl
  rw [RecipeStore.entry, hrow]
  split
  · simp only [List.getD_eq_getElem?_getD, List.getElem?_replicate]
    split <;> rfl
  · rfl

/-! ### The channels of the front end (R53) -/

/-- A temperature is held at 255 when its probe is open or shorted, else from 0 to 254. -/
theorem encodeTemp_held (given : Conversion) :
    (given = none → encodeTemp given = 255) ∧
      (∀ v : Nat, given = some (v : Int) → encodeTemp given = min 254 v) ∧
      ∀ v : Int, v < 0 → given = some v → encodeTemp given = 0 := by
  refine ⟨?_, ?_, ?_⟩
  · rintro rfl; rfl
  · rintro v rfl; rfl
  · rintro v hv rfl
    simp [encodeTemp, Int.toNat_of_nonpos (Int.le_of_lt hv)]

/-- A conductivity or turbidity is held at 0 when its probe is open or shorted, else up to its limit. -/
theorem encodeLevel_held (limit : Nat) (given : Conversion) :
    (given = none → encodeLevel limit given = 0) ∧
      (∀ v : Nat, given = some (v : Int) → encodeLevel limit given = min limit v) ∧
      ∀ v : Int, v < 0 → given = some v → encodeLevel limit given = 0 := by
  refine ⟨?_, ?_, ?_⟩
  · rintro rfl; rfl
  · rintro v rfl; rfl
  · rintro v hv rfl
    simp [encodeLevel, Int.toNat_of_nonpos (Int.le_of_lt hv)]

theorem exec_probeSample (a b : Conversions) (s : State) :
    exec (.probeSample a b) s =
      .next { s with frontEnd := ⟨encodeChannels a, encodeChannels b⟩ } := rfl

/-! ### Two readings reconciled (R55, R56) -/

theorem readingGap_comm (a b : Nat) : readingGap a b = readingGap b a := by
  rw [readingGap, readingGap, Nat.max_comm, Nat.min_comm]

theorem readingGap_of_le {a b : Nat} (h : a ≤ b) : readingGap a b = b - a := by
  rw [readingGap, Nat.max_eq_right h, Nat.min_eq_left h]

/-- The order of the two probes does not matter. -/
theorem reconcile_comm (t1 t2 : Nat) : reconcile t1 t2 = reconcile t2 t1 := by
  unfold reconcile
  rw [readingGap_comm t2 t1, Nat.add_comm t2 t1, Nat.min_comm t2 t1]
  by_cases h1 : t1 ≤ 240 <;> by_cases h2 : t2 ≤ 240 <;> simp [h1, h2]

/-- Two valid readings are decided by their difference. -/
theorem reconcile_of_valid {t1 t2 : Nat} (h : t1 ≤ t2) (h2 : t2 ≤ 240) :
    reconcile t1 t2 =
      if t2 ≤ t1 + 4 then (.agree, (t1 + t2) / 2)
      else if t2 ≤ t1 + 12 then (.corrected, t1)
      else (.failed, 255) := by
  simp only [reconcile, Nat.le_trans h h2, h2, if_true, readingGap_of_le h, Nat.min_eq_left h,
    Nat.sub_le_iff_le_add']

/-- One valid reading is taken alone. -/
theorem reconcile_of_one_valid {t1 t2 : Nat} (h1 : t1 ≤ 240) (h2 : 240 < t2) :
    reconcile t1 t2 = (.corrected, t1) := by
  simp [reconcile, h1, Nat.not_le.mpr h2]

theorem reconcile_of_none_valid {t1 t2 : Nat} (h1 : 240 < t1) (h2 : 240 < t2) :
    reconcile t1 t2 = (.failed, 255) := by
  simp [reconcile, Nat.not_le.mpr h1, Nat.not_le.mpr h2]

/-! ### The outcome of a volume (R94) -/

theorem volumeOutcome_of_short {preset tolerance volume : Nat} (h : volume + tolerance < preset) :
    volumeOutcome preset tolerance volume = .short := if_pos h

theorem volumeOutcome_of_over {preset tolerance volume : Nat} (h : preset + tolerance < volume) :
    volumeOutcome preset tolerance volume = .over := by
  have hlow : ¬volume + tolerance < preset := by omega
  simp [volumeOutcome, hlow, h]

theorem volumeOutcome_of_within {preset tolerance volume : Nat} (hlow : preset ≤ volume + tolerance)
    (hhigh : volume ≤ preset + tolerance) : volumeOutcome preset tolerance volume = .filled := by
  simp [volumeOutcome, Nat.not_lt.mpr hlow, Nat.not_lt.mpr hhigh]

/-! ### The statements of 03_cleaning_dose.md -/

/-- Settles O16: the answer to a request by the bay state, then the checks of each command in their
order. -/
theorem weightsAndMatrixWritten : Obligations.WeightsAndMatrixWritten := by
  unfold Obligations.WeightsAndMatrixWritten
  refine ⟨reset_entry_forbidden, fun b s hb hx => ?_⟩
  refine ⟨fun hs => ?resetting, fun hs => ?yard, fun hs hl => ?length, fun hs hl hc => ?curve,
    fun hs hl hc => ?weightsStored, fun hs hl hp => ?prior,
    fun j hs hl hp hj hgood hbad => ?entry, fun row hs hl hp hrow => ?rowStored⟩
  case resetting =>
    exact ⟨congrArg _ (hostRequest_of_resetting _ _ _ hx hs),
      congrArg _ (hostRequest_of_resetting _ _ _ hx hs)⟩
  case yard =>
    exact ⟨congrArg _ (hostRequest_inSetup_of_inYard _ hb hx hs),
      congrArg _ (hostRequest_inSetup_of_inYard _ hb hx hs)⟩
  case length =>
    exact ⟨exec_writeWeights_of_error hb hx hs (checkWeights_of_length_ne hl),
      exec_writeMatrix_of_error hb hx hs (checkMatrix_of_length_ne hl)⟩
  case curve => exact exec_writeWeights_of_error hb hx hs (checkWeights_of_curve_gt hl hc)
  case weightsStored => exact exec_writeWeights_of_ok hb hx hs (checkWeights_of_curve_le hl hc)
  case prior => exact exec_writeMatrix_of_error hb hx hs (checkMatrix_of_prior_gt hl hp)
  case entry =>
    have hr : matrixRow 0 (b.drop 1) = .error (0 + j) :=
      matrixRow_of_first_bad (b.drop 1) 0 j (by simpa [hl] using hj)
        (fun k hk => by simpa only [byteAt_drop_one] using hgood k hk)
        (by simpa only [byteAt_drop_one] using hbad)
    rw [Nat.zero_add] at hr
    exact exec_writeMatrix_of_error hb hx hs (checkMatrix_of_row_error hl hp hr)
  case rowStored =>
    have hr : matrixRow 0 (b.drop 1) = .ok row := matrixRow_of_all_codes _ 0 row hrow
    exact exec_writeMatrix_of_ok hb hx hs (checkMatrix_of_row_ok hl hp hr)

/-- Settles O38: every channel by the encoding of its kind. -/
theorem probeSampleHeld : Obligations.ProbeSampleHeld := by
  unfold Obligations.ProbeSampleHeld
  intro a b s
  refine ⟨encodeChannels a, encodeChannels b, exec_probeSample a b s, fun conv ch hch => ?_⟩
  obtain rfl : ch = encodeChannels conv := by
    rcases hch with ⟨rfl, rfl⟩ | ⟨rfl, rfl⟩ <;> rfl
  refine ⟨fun given held h => ?_, fun given held limit h => ?_⟩
  · rcases h with ⟨rfl, rfl⟩ | ⟨rfl, rfl⟩
    · exact encodeTemp_held conv.t1
    · exact encodeTemp_held conv.t2
  · rcases h with ⟨rfl, rfl, rfl⟩ | ⟨rfl, rfl, rfl⟩ | ⟨rfl, rfl, rfl⟩
    · exact encodeLevel_held 65535 conv.supply
    · exact encodeLevel_held 65535 conv.ret
    · exact encodeLevel_held 9999 conv.turbidity

/-- Settles O39: each case for the lower reading first, the other order by symmetry; the outcome of a
volume by its two bounds. -/
theorem measurementsDecide : Obligations.MeasurementsDecide := by
  unfold Obligations.MeasurementsDecide
  refine ⟨fun t1 t2 => ?_, fun preset tolerance volume => ⟨volumeOutcome_of_short,
    volumeOutcome_of_over, volumeOutcome_of_within⟩⟩
  rw [reconcile_comm t2 t1]
  simp only [and_self]
  refine ⟨fun hle h2 h4 => ?_, fun h4 h2 h12 => ?_, fun h12 h2 => ?_, reconcile_of_one_valid,
    reconcile_of_none_valid⟩
  · rw [reconcile_of_valid hle h2, if_pos h4]
  · rw [reconcile_of_valid (by omega) h2, if_neg (by omega), if_pos h12]
  · rw [reconcile_of_valid (by omega) h2, if_neg (by omega), if_neg (by omega)]

end Sys2Proof.Machine
